-- ==== Sys2Proof/Word.lean ====
section
/-! DEFINITION. The widths of CipherCore's values (spec/00_scope.md section 4: CMD_W, DATA_W, STATUS_W, SUBKEY_W,
HALF_W, CD_W, BLOCK_W, KEY_W). Every value is an unsigned bit vector; nothing in this hardware is signed (section 5.1). -/

namespace Sys2Proof

/-- A command word on the `cmd` port, 16 bits (R50). -/
abbrev CmdWord := BitVec 16

/-- A value on the `wdata` or `rdata` port, 64 bits (R20); also a Block and a RawKey. -/
abbrev Data := BitVec 64

/-- The value of the `status` port, 4 bits (R20, R181). -/
abbrev StatusCode := BitVec 4

/-- A round subkey, 48 bits (R11). -/
abbrev Subkey := BitVec 48

/-- Half of a block, 32 bits. -/
abbrev Half := BitVec 32

/-- One key half-register, 28 bits (R15). -/
abbrev HalfReg := BitVec 28

end Sys2Proof
end

