-- ==== Sys2Proof/Syntax.lean ====
section
/-! DEFINITION. The commands of CipherCore, one constructor per row of spec/opcode_table.json
(spec/30_encoding.md R53). The wide operands do not travel in the command word: they are on `wdata` (R52). -/

namespace Sys2Proof

/-- The direction of a schedule: `dir = 0` encrypt, `dir = 1` decrypt (R13, R51). -/
inductive Direction
  | encrypt
  | decrypt
  deriving DecidableEq, Repr

/-- A command. A round count or slot index is the unsigned number of field `n` (R52); `Instr.wellFormed` bounds it. -/
inductive Instr
  /-- Do nothing (R160). -/
  | nop
  /-- Generate a schedule of `n` rounds for one direction (R100). -/
  | ksgen (dir : Direction) (n : Nat)
  /-- Transform one block through `n` rounds (R140). -/
  | crypt (n : Nat)
  /-- Load the round-function key register (R121). -/
  | ldfk
  /-- Evaluate the round function (R122). -/
  | feval
  /-- Read schedule slot `i` (R161). -/
  | rdsk (i : Nat)
  /-- Read the status word (R162). -/
  | rdst
  /-- Discard the schedule and zero `FK` (R163). -/
  | clr
  deriving DecidableEq, Repr

end Sys2Proof
end

