-- ==== Sys2Proof/WellFormed.lean ====
section
/-! DEFINITION. Which commands can be written as a command word: field `n` has 5 bits, 0 to 31
(spec/30_encoding.md R51, R52). Round counts and indices that always fail (R55) are still words. -/

namespace Sys2Proof

/-- `n` fits the 5-bit field `cmd[4:0]` (R51). -/
def fitsCountField (n : Nat) : Bool := n < 32

/-- The command has a command word. -/
def Instr.wellFormed : Instr → Bool
  | .nop => true
  | .ksgen _ n => fitsCountField n
  | .crypt n => fitsCountField n
  | .ldfk => true
  | .feval => true
  | .rdsk i => fitsCountField i
  | .rdst => true
  | .clr => true

end Sys2Proof
end

