-- ==== Sys2Proof/Decode.lean ====
section
/-! DEFINITION. Decoding a command word (spec/30_encoding.md R50 to R55) and encoding a command, from the same field
table; the opcode table as data (R53); the pseudo-commands and the command-script notation (R57, R58). -/

namespace Sys2Proof

/-! ## The one format CMD16 -/

/-- The five fields of a command word (R51). -/
structure Fields where
  op : BitVec 4
  z1 : BitVec 3
  dir : BitVec 1
  z2 : BitVec 3
  n : BitVec 5
  deriving DecidableEq, Repr

/-- `op = cmd[15:12]`, `z1 = cmd[11:9]`, `dir = cmd[8]`, `z2 = cmd[7:5]`, `n = cmd[4:0]` (R51). -/
def splitWord (w : CmdWord) : Fields :=
  { op := w.extractLsb' 12 4
    z1 := w.extractLsb' 9 3
    dir := w.extractLsb' 8 1
    z2 := w.extractLsb' 5 3
    n := w.extractLsb' 0 5 }

/-- The word with these fields, `op` in the high bits (R51). -/
def joinFields (f : Fields) : CmdWord := f.op ++ f.z1 ++ f.dir ++ f.z2 ++ f.n

/-- Direction 0 is encrypt, 1 is decrypt (R51). -/
def Direction.ofBit (b : BitVec 1) : Direction := if b = 1#1 then .decrypt else .encrypt

/-- The bit of a direction (R13, R51). -/
def Direction.bit : Direction → BitVec 1
  | .encrypt => 0#1
  | .decrypt => 1#1

/-! ## Decoding -/

/-- Why a command word is illegal: the five conditions of R54. Every one fails with the same status, `E_ILLEGAL`. -/
inductive Illegal
  /-- `z1 != 0`. -/
  | nonzeroZ1
  /-- `z2 != 0`. -/
  | nonzeroZ2
  /-- `op` is 0x8 to 0xF. -/
  | reservedOpcode
  /-- `dir = 1` and the command is not KSGEN. -/
  | unusedDirection
  /-- `n != 0` and the command uses no `n`. -/
  | unusedCount
  deriving DecidableEq, Repr

/-- A command that uses neither `dir` nor `n`: both must be zero (R54). -/
def bareCommand (f : Fields) (i : Instr) : Except Illegal Instr :=
  if f.dir ≠ 0#1 then .error .unusedDirection
  else if f.n ≠ 0#5 then .error .unusedCount
  else .ok i

/-- A command that uses `n` and not `dir`: `dir` must be zero (R54). -/
def countCommand (f : Fields) (i : Nat → Instr) : Except Illegal Instr :=
  if f.dir ≠ 0#1 then .error .unusedDirection
  else .ok (i f.n.toNat)

/-- The opcode map (R53). -/
def decodeOpcode (f : Fields) : Except Illegal Instr :=
  match f.op.toNat with
  | 0x0 => bareCommand f .nop
  | 0x1 => .ok (.ksgen (Direction.ofBit f.dir) f.n.toNat)
  | 0x2 => countCommand f .crypt
  | 0x3 => bareCommand f .ldfk
  | 0x4 => bareCommand f .feval
  | 0x5 => countCommand f .rdsk
  | 0x6 => bareCommand f .rdst
  | 0x7 => bareCommand f .clr
  | _ => .error .reservedOpcode

/-- R54's conditions on the reserved bits come first; then the opcode map. Total on every 16-bit word. -/
def decodeFields (f : Fields) : Except Illegal Instr :=
  if f.z1 ≠ 0#3 then .error .nonzeroZ1
  else if f.z2 ≠ 0#3 then .error .nonzeroZ2
  else decodeOpcode f

/-- The command a word names, or why it is illegal (R54, R55 step 1). -/
def decode (w : CmdWord) : Except Illegal Instr := decodeFields (splitWord w)

/-! ## Encoding -/

/-- The fields of a command: the unused ones are zero (R51, R53). -/
def fieldsOf : Instr → Fields
  | .nop => { op := 0x0#4, z1 := 0#3, dir := 0#1, z2 := 0#3, n := 0#5 }
  | .ksgen dir n => { op := 0x1#4, z1 := 0#3, dir := dir.bit, z2 := 0#3, n := BitVec.ofNat 5 n }
  | .crypt n => { op := 0x2#4, z1 := 0#3, dir := 0#1, z2 := 0#3, n := BitVec.ofNat 5 n }
  | .ldfk => { op := 0x3#4, z1 := 0#3, dir := 0#1, z2 := 0#3, n := 0#5 }
  | .feval => { op := 0x4#4, z1 := 0#3, dir := 0#1, z2 := 0#3, n := 0#5 }
  | .rdsk i => { op := 0x5#4, z1 := 0#3, dir := 0#1, z2 := 0#3, n := BitVec.ofNat 5 i }
  | .rdst => { op := 0x6#4, z1 := 0#3, dir := 0#1, z2 := 0#3, n := 0#5 }
  | .clr => { op := 0x7#4, z1 := 0#3, dir := 0#1, z2 := 0#3, n := 0#5 }

/-- The command word of a well-formed command. -/
def encode (i : Instr) : CmdWord := joinFields (fieldsOf i)

/-! ## The opcode table as data (spec/30_encoding.md R53, spec/opcode_table.json) -/

/-- One row: a word `w` is the named command exactly when `w AND mask = pattern` (R53). -/
structure OpcodeRow where
  mnemonic : String
  pattern : CmdWord
  mask : CmdWord
  deriving DecidableEq, Repr

/-- The row of a command. -/
def rowOf : Instr → OpcodeRow
  | .nop => ⟨"NOP", 0x0000#16, 0xFFFF#16⟩
  | .ksgen _ _ => ⟨"KSGEN", 0x1000#16, 0xFEE0#16⟩
  | .crypt _ => ⟨"CRYPT", 0x2000#16, 0xFFE0#16⟩
  | .ldfk => ⟨"LDFK", 0x3000#16, 0xFFFF#16⟩
  | .feval => ⟨"FEVAL", 0x4000#16, 0xFFFF#16⟩
  | .rdsk _ => ⟨"RDSK", 0x5000#16, 0xFFE0#16⟩
  | .rdst => ⟨"RDST", 0x6000#16, 0xFFFF#16⟩
  | .clr => ⟨"CLR", 0x7000#16, 0xFFFF#16⟩

/-- The eight rows in the table's order. -/
def opcodeTable : List OpcodeRow :=
  [rowOf .nop, rowOf (.ksgen .encrypt 0), rowOf (.crypt 0), rowOf .ldfk, rowOf .feval, rowOf (.rdsk 0), rowOf .rdst,
   rowOf .clr]

/-! ## The host's interface to the decoder -/

/-- The word whose `nbits` low bits are those of `w` and whose other bits are zero. -/
def commandWord (nbits w : Nat) : CmdWord := BitVec.ofNat 16 (w % 2 ^ nbits)

/-- What the decoder reads from an instruction of the opcode table, `nbits` bits `w`. A command is one 16-bit word
(R50), so its bits are numbered as the table numbers them. -/
def decodeTableWord (nbits w : Nat) : Option Instr :=
  match decode (commandWord nbits w) with
  | .ok i => some i
  | .error _ => none

/-! ## Pseudo-commands and command scripts (R57, R58) -/

/-- The three pseudo-commands (R58). -/
inductive Pseudo
  | ksenc (n : Nat)
  | ksdec (n : Nat)
  | discard
  deriving DecidableEq, Repr

/-- Each pseudo-command stands for exactly one command (R58). -/
def Pseudo.expand : Pseudo → Instr
  | .ksenc n => .ksgen .encrypt n
  | .ksdec n => .ksgen .decrypt n
  | .discard => .clr

/-- The commands that take a data operand on `wdata` (R53, R57). -/
def Instr.takesData : Instr → Bool
  | .nop => false
  | .ksgen _ _ => true
  | .crypt _ => true
  | .ldfk => true
  | .feval => true
  | .rdsk _ => false
  | .rdst => false
  | .clr => false

/-- `ENC` stands for `dir = 0` and `DEC` for `dir = 1` (R57). -/
def Direction.scriptName : Direction → String
  | .encrypt => "ENC"
  | .decrypt => "DEC"

/-- The mnemonic with the command-word operands, separated by commas, numbers in decimal (R57). -/
def Instr.scriptText (i : Instr) : String :=
  match i with
  | .nop => "NOP"
  | .ksgen dir n => "KSGEN " ++ dir.scriptName ++ ", " ++ toString n
  | .crypt n => "CRYPT " ++ toString n
  | .ldfk => "LDFK"
  | .feval => "FEVAL"
  | .rdsk k => "RDSK " ++ toString k
  | .rdst => "RDST"
  | .clr => "CLR"

/-- One line of a command script: `<-` and the `wdata` value where the command takes one (R57). -/
def scriptLine (i : Instr) (wdata : Data) : String :=
  if i.takesData then i.scriptText ++ " <- " ++ toString wdata.toNat else i.scriptText

/-- A line with the expected result: `->`, then `rdata` and `status` (R57). -/
def scriptExpect (i : Instr) (wdata rdata : Data) (status : StatusCode) : String :=
  scriptLine i wdata ++ " -> " ++ toString rdata.toNat ++ " " ++ toString status.toNat

end Sys2Proof
end

