-- ==== Sys2Proof/Config.lean ====
section
/-! DEFINITION. What is fixed for an instance: the open parameter `IPFP` and the shape of the cipher's tables
(spec/00_scope.md section 4, spec/92_eei_decisions.md D17 and D18). The table values are in Machine/Tables.lean. -/

namespace Sys2Proof

/-- The parameter `IPFP`: whether the block transform is wrapped in an initial and a final permutation (D17). -/
inductive Ipfp
  | absent
  | present
  deriving DecidableEq, Repr, Inhabited

/-- The setting of `IPFP` of the instance as it leaves reset. The spec leaves it open (D17, 90_conflicts C1), so it
has no body and no proof can see which it is (assumption log 1). -/
opaque Config.ipfp : Ipfp

/-- The cipher's tables as configuration data (R16, R72, D18). A permutation table is printed 1-based and
most-significant-bit first (R3); its entry `T[j]` of the spec is `T[j - 1]` here. -/
structure Tables where
  /-- Key selection, 64 to 56 bits (R73). -/
  pc1 : Vector Nat 56
  /-- Rotation amounts of rounds 1 to 16 (R74). -/
  shift : Vector Nat 16
  /-- Compression, 56 to 48 bits (R75). -/
  pc2 : Vector Nat 48
  /-- Expansion, 32 to 48 bits (R76). -/
  e : Vector Nat 48
  /-- The substitution tables `S1` to `S8`, each row-major (R77 to R84). -/
  sbox : Vector (Vector (BitVec 4) 64) 8
  /-- Round permutation, 32 to 32 bits (R85). -/
  p : Vector Nat 32
  /-- Initial permutation, 64 to 64 bits (R86). -/
  ip : Vector Nat 64
  /-- Final permutation, 64 to 64 bits (R87). -/
  fp : Vector Nat 64
  deriving DecidableEq, Repr

end Sys2Proof
end

