-- ==== Sys2Proof/Machine/Networks.lean ====
section
/-! DEFINITION. The combinational building blocks (spec/40_permutation_networks.md R70, R88 to R91): bit selection by a
table, the 28-bit rotation, the substitution layer. XOR (R89) is Lean's `^^^` on operands of equal width. -/

namespace Sys2Proof.Machine

open Sys2Proof

/-- `bit_W(v, n)`: bit 1 is the most significant bit, bit `W` the least (R3). -/
def bitMsb {W : Nat} (v : BitVec W) (n : Nat) : Bool := v.getLsbD (W - n)

/-- `PERM(T, W, v)`: output bit `j` is input bit `T[j]`, in the numbering of `bitMsb` (R70). -/
def perm {m W : Nat} (T : Vector Nat m) (v : BitVec W) : BitVec m :=
  T.toList.foldl (fun y t => (y <<< 1) ||| (BitVec.ofBool (bitMsb v t)).setWidth m) 0#m

/-- `rotl_28(v, s)` (R88). -/
def rotl28 (v : HalfReg) (s : Nat) : HalfReg := (v <<< s) ||| (v >>> (28 - s))

/-- The row a 6-bit group selects: its first and its last bit, `2*g[5] + g[0]` (R90). -/
def sboxRow (g : BitVec 6) : Nat := 2 * (g.getLsbD 5).toNat + (g.getLsbD 0).toNat

/-- The column a 6-bit group selects: its middle bits `g[4:1]` (R90). -/
def sboxColumn (g : BitVec 6) : Nat := (g.extractLsb' 1 4).toNat

theorem sboxIndex_lt (g : BitVec 6) : 16 * sboxRow g + sboxColumn g < 64 := by
  have hc : sboxColumn g < 16 := (g.extractLsb' 1 4).isLt
  have h5 := Bool.toNat_lt (g.getLsbD 5)
  have h0 := Bool.toNat_lt (g.getLsbD 0)
  unfold sboxRow
  omega

/-- The entry `S[16*row + col]` a group selects (R90). -/
def sboxLookup (S : Vector (BitVec 4) 64) (g : BitVec 6) : BitVec 4 :=
  S[16 * sboxRow g + sboxColumn g]'(sboxIndex_lt g)

/-- The 6-bit group `g_j`, `j` from 1 to 8, from the most significant end (R91). -/
def sboxGroup (x : BitVec 48) (j : Nat) : BitVec 6 := x.extractLsb' (48 - 6 * j) 6

/-- `SUB(x)`: group `j` through table `S_j`, the eight outputs in order (R91). -/
def sub (T : Tables) (x : BitVec 48) : Half :=
  sboxLookup T.sbox[0] (sboxGroup x 1) ++ sboxLookup T.sbox[1] (sboxGroup x 2) ++
  sboxLookup T.sbox[2] (sboxGroup x 3) ++ sboxLookup T.sbox[3] (sboxGroup x 4) ++
  sboxLookup T.sbox[4] (sboxGroup x 5) ++ sboxLookup T.sbox[5] (sboxGroup x 6) ++
  sboxLookup T.sbox[6] (sboxGroup x 7) ++ sboxLookup T.sbox[7] (sboxGroup x 8)

end Sys2Proof.Machine
end

