-- ==== Sys2Proof/Machine/State.lean ====
section
/-! DEFINITION. The state of one CipherCore instance (spec/10_state.md R10 to R22), its four ports (R20), the host's
side of the ports (spec/20_memory.md R44, spec/70_reset_and_hazards.md R208), and the reset state (R21). -/

namespace Sys2Proof.Machine

open Sys2Proof

/-- What the host can do to an instance (R44): apply reset, or issue a command word with its `wdata`. -/
inductive HostEvent
  | reset
  | command (cmd : CmdWord) (wdata : Data)
  deriving DecidableEq, Repr

/-- What the host receives for one command (R208). -/
structure Response where
  rdata : Data
  status : StatusCode
  deriving DecidableEq, Repr

/-- The state. The first four fields are the whole architectural state (R10). -/
structure State where
  /-- `SK[0..15]`: a slot holds a 48-bit subkey or no value (R11). -/
  sk : Vector (Option Subkey) 16
  /-- `SLEN`: the number of valid slots, in 5 bits (R12). -/
  slen : BitVec 5
  /-- `SDIR`: the direction the schedule was generated for (R13). -/
  sdir : Direction
  /-- `FK`: the subkey operand of FEVAL (R14). -/
  fk : Subkey
  /-- The parameter `IPFP` of the instance, written by nothing (D17; assumption log 1). -/
  ipfp : Ipfp
  /-- Input port `cmd`: the word sampled for the last command (R20; reset value: assumption log 2). -/
  cmd : CmdWord
  /-- Input port `wdata`: the value sampled for the last command (R20; reset value: assumption log 2). -/
  wdata : Data
  /-- Output port `rdata` of the last command (R20; reset value: assumption log 2). -/
  rdata : Data
  /-- Output port `status` of the last command; no command reads it (R18, R20; reset value: assumption log 2). -/
  status : StatusCode
  /-- What the host has chosen and not yet applied, oldest first (R44, R208; assumption log 3). -/
  pending : List HostEvent
  /-- The responses the host has received, in issue order (R208; assumption log 3). -/
  received : List Response
  deriving DecidableEq, Repr

/-- Why a step stops with a fault. No command of the hardware traps (R180). -/
inductive Fault
  /-- A slot that holds no value was read: CRYPT and RDSK raise it when a slot below `SLEN` is empty or `SLEN` is past
  the store. "reading it is impossible by construction or is a fault of the model, never a number"
  (spec/00_scope.md section 5.2, `undef`). No state that meets `Inv` reaches it. Safe: the model stops. -/
  | slotWithoutValue
  deriving DecidableEq, Repr

/-- Why the model gives an instruction no meaning. -/
inductive Refusal
  /-- An arm of `exec` without a meaning, by its mnemonic. No arm answers it. Safe: the model stops. -/
  | notModelled (mnemonic : String)
  deriving DecidableEq, Repr

/-- Right after reset (R21): no schedule, `SDIR = 0`, `FK = 0`, no slot with a value; `IPFP` as the instance has it;
the ports at the values of assumption log 2; nothing pending and nothing received (log 3). -/
def State.reset : State :=
  { sk := Vector.replicate 16 none
    slen := 0#5
    sdir := .encrypt
    fk := 0#48
    ipfp := Config.ipfp
    cmd := 0#16
    wdata := 0#64
    rdata := 0#64
    status := 0#4
    pending := []
    received := [] }

end Sys2Proof.Machine
end

