-- ==== Sys2Proof/Machine/Flags.lean ====
section
/-! DEFINITION. CipherCore has no flags (spec/10_state.md R18). In their place: the status codes
(spec/60_exceptions.md R181) and the status word RDST returns (spec/44_access_and_control.md R162). -/

namespace Sys2Proof.Machine

open Sys2Proof

/-- The five statuses (R181). -/
inductive Status
  | ok
  | eIllegal
  | eRounds
  | eMismatch
  | eIndex
  deriving DecidableEq, Repr

/-- The 4-bit code of a status (R181). -/
def Status.code : Status → StatusCode
  | .ok => 0#4
  | .eIllegal => 1#4
  | .eRounds => 2#4
  | .eMismatch => 3#4
  | .eIndex => 4#4

/-- Bit 12 of the status word: 1 when `IPFP = present` (R162). -/
def ipfpBit : Ipfp → BitVec 1
  | .absent => 0#1
  | .present => 1#1

/-- The status word: `SLEN` in [4:0], `SDIR` in [8], `IPFP` in [12], every other bit 0 (R162). -/
def statusWord (s : State) : Data :=
  0#51 ++ ipfpBit s.ipfp ++ 0#3 ++ s.sdir.bit ++ 0#3 ++ s.slen

end Sys2Proof.Machine
end

