-- ==== Sys2Proof/Machine/Operands.lean ====
section
/-! DEFINITION. The operand and result forms on the 64-bit ports (spec/20_memory.md R32, R33, spec/00_scope.md R4) and
the legal range of a round count (spec/41_key_schedule.md R106, spec/43_block_transform.md R146). -/

namespace Sys2Proof.Machine

open Sys2Proof

/-- KSGEN's RawKey: all of `wdata`, key bit 1 at `wdata[63]` (R32). -/
def rawKey (s : State) : Data := s.wdata

/-- CRYPT's input Block: all of `wdata`, bit 1 at `wdata[63]` (R32). -/
def inputBlock (s : State) : Data := s.wdata

/-- LDFK's subkey `wdata[47:0]`; `wdata[63:48]` is ignored (R33). -/
def subkeyOperand (s : State) : Subkey := s.wdata.extractLsb' 0 48

/-- FEVAL's half-block `wdata[31:0]`; `wdata[63:32]` is ignored (R33). -/
def halfOperand (s : State) : Half := s.wdata.extractLsb' 0 32

/-- `zext_64` of a result narrower than `rdata` (R33). -/
def zext64 {w : Nat} (v : BitVec w) : Data := v.setWidth 64

/-- The Left half of a block, bits 1 to 32, that is [63:32] (R32). -/
def leftHalf (b : Data) : Half := b.extractLsb' 32 32

/-- The Right half of a block, bits 33 to 64, that is [31:0] (R32). -/
def rightHalf (b : Data) : Half := b.extractLsb' 0 32

/-- Reassemble a block from its halves, Left in [63:32] (R144). -/
def joinHalves (l r : Half) : Data := l ++ r

/-- The round counts KSGEN and CRYPT accept: 1 to 16 (R106, R146). -/
def legalRoundCount (n : Nat) : Bool := 1 ≤ n && n ≤ 16

/-- The port value of the host's byte array `b[0..7]`: `b[0]` travels in [63:56] (R4, R32). -/
def blockOfBytes (b : Vector (BitVec 8) 8) : Data :=
  b[0] ++ b[1] ++ b[2] ++ b[3] ++ b[4] ++ b[5] ++ b[6] ++ b[7]

end Sys2Proof.Machine
end

