-- ==== Sys2Proof/Machine/Ops.lean ====
section
/-! DEFINITION. The shared operations: ending a command (`done` and `fail` of spec/00_scope.md section 5.2), reading and
replacing the schedule store (spec/20_memory.md R30), discarding (R163, R200), sampling the input ports and collecting
the outputs (R20, R208). No command takes an exception: `fail` stands in its place (spec/60_exceptions.md R180). -/

namespace Sys2Proof.Machine

open Sys2Proof

/-! ## Ending a command -/

/-- Drive the output ports (R20). -/
def driveOutputs (data : Data) (code : Status) (s : State) : State :=
  { s with rdata := data, status := code.code }

/-- `done v`: the command ends with `status = OK` and `rdata = v` (00_scope section 5.2). -/
def complete (data : Data) (s : State) : Host.Outcome State Fault Refusal :=
  .next (driveOutputs data .ok s)

/-- `fail E_x`: the command ends with that status, `rdata = 0` and no other change (R180, R187). -/
def fail (code : Status) (s : State) : Host.Outcome State Fault Refusal :=
  .next (driveOutputs 0#64 code s)

/-! ## The schedule store and `FK` -/

/-- `SK[i]`, or nothing where the slot holds no value or is no slot (R11, R31). -/
def readSlot (s : State) (i : Nat) : Option Subkey := if h : i < 16 then s.sk[i] else none

/-- The values of slots that all hold one. -/
def allHeld : List (Option Subkey) → Option (List Subkey)
  | [] => some []
  | none :: _ => none
  | some k :: rest => (allHeld rest).map (k :: ·)

/-- `SK[0 .. n-1]` in ascending index order, if every one holds a value (R30, R145). -/
def readSchedule (s : State) (n : Nat) : Option (List Subkey) := allHeld (s.sk.toList.take n)

/-- Slot `j` holds entry `j` of the list; slots past its end hold no value (R103, R107). -/
def slotsOf (keys : List Subkey) : Vector (Option Subkey) 16 := Vector.ofFn fun j => keys[j.val]?

/-- Replace the whole schedule (R107): slots, `SLEN` and `SDIR`. -/
def storeSchedule (keys : List Subkey) (n : Nat) (dir : Direction) (s : State) : State :=
  { s with sk := slotsOf keys, slen := BitVec.ofNat 5 n, sdir := dir }

/-- Write `FK` (R14). -/
def writeFK (k : Subkey) (s : State) : State := { s with fk := k }

/-- The architectural state as reset leaves it (R21): CLR and the reset event end here (R163, R200). -/
def clearState (s : State) : State :=
  { s with sk := Vector.replicate 16 none, slen := 0#5, sdir := .encrypt, fk := 0#48 }

/-! ## The host's side of the ports -/

/-- The host's next event is taken from those pending. -/
def takeEvent (rest : List HostEvent) (s : State) : State := { s with pending := rest }

/-- Sample the input ports, once per command (R20). -/
def sampleInputs (w : CmdWord) (d : Data) (s : State) : State := { s with cmd := w, wdata := d }

/-- The host receives the outputs of the command that just ended (R208). -/
def collectOutputs (s : State) : State := { s with received := s.received ++ [⟨s.rdata, s.status⟩] }

/-- The effect of an illegal word: `E_ILLEGAL`, whichever condition of R54 it meets (R182). -/
def execIllegal (s : State) : Host.Outcome State Fault Refusal := fail .eIllegal s

/-- The reset event (R200). -/
def applyReset (s : State) : State := clearState s

/-- What a step does after a command: collect its outputs (R208). -/
def finishCommand : Host.Outcome State Fault Refusal → Host.Outcome State Fault Refusal
  | .next t => .next (collectOutputs t)
  | .fault f => .fault f
  | .refused r => .refused r

end Sys2Proof.Machine
end

