-- ==== Sys2Proof/Machine/RoundFunction.lean ====
section
/-! DEFINITION. The round function and its commands LDFK and FEVAL (spec/42_round_function.md R120 to R122). -/

namespace Sys2Proof.Machine

open Sys2Proof

/-- `F(r, k)`: expand, XOR with the subkey, substitute, permute (R120). -/
def roundF (T : Tables) (r : Half) (k : Subkey) : Half :=
  perm T.p (sub T (perm T.e r ^^^ k))

/-- LDFK (R121). -/
def execLdfk (s : State) : Host.Outcome State Fault Refusal :=
  complete 0#64 (writeFK (subkeyOperand s) s)

/-- FEVAL (R122). -/
def execFeval (s : State) : Host.Outcome State Fault Refusal :=
  complete (zext64 (roundF standardTables (halfOperand s) s.fk)) s

end Sys2Proof.Machine
end

