-- ==== Sys2Proof/Machine/Block.lean ====
section
/-! DEFINITION. The block transform, command CRYPT (spec/43_block_transform.md R140 to R147). -/

namespace Sys2Proof.Machine

open Sys2Proof

/-- The working registers `L` and `R` (R15). -/
structure Halves where
  l : Half
  r : Half
  deriving DecidableEq, Repr

/-- Entry stage: the initial permutation when `IPFP = present`, then the split (R141). -/
def entryStage (T : Tables) (p : Ipfp) (b : Data) : Halves :=
  match p with
  | .absent => ⟨leftHalf b, rightHalf b⟩
  | .present => ⟨leftHalf (perm T.ip b), rightHalf (perm T.ip b)⟩

/-- An inner round: the new Right is `F(R, k) ^ L`, the new Left is the old Right (R142). -/
def innerRound (T : Tables) (k : Subkey) (h : Halves) : Halves :=
  ⟨h.r, roundF T h.r k ^^^ h.l⟩

/-- The final round: the halves are not swapped (R143). -/
def finalRound (T : Tables) (k : Subkey) (h : Halves) : Halves :=
  ⟨roundF T h.r k ^^^ h.l, h.r⟩

/-- The rounds, one for each subkey in ascending slot order; the last one is the final round (R145). A schedule has at
least one subkey (R146), so the empty case is never a command's. -/
def feistelRounds (T : Tables) : List Subkey → Halves → Halves
  | [], h => h
  | [k], h => finalRound T k h
  | k :: k' :: ks, h => feistelRounds T (k' :: ks) (innerRound T k h)

/-- Exit stage: reassemble, then the final permutation when `IPFP = present` (R144). -/
def exitStage (T : Tables) (p : Ipfp) (h : Halves) : Data :=
  match p with
  | .absent => joinHalves h.l h.r
  | .present => perm T.fp (joinHalves h.l h.r)

/-- The block transform `T(S, n, b)` for the schedule `S` (R140, R148). -/
def transform (T : Tables) (p : Ipfp) (keys : List Subkey) (b : Data) : Data :=
  exitStage T p (feistelRounds T keys (entryStage T p b))

/-- CRYPT (R140): an illegal round count (R146), then a count that is not the schedule's length (R147), then the
transform. It writes no architectural state (R149). -/
def execCrypt (n : Nat) (s : State) : Host.Outcome State Fault Refusal :=
  if legalRoundCount n then
    if n = s.slen.toNat then
      match readSchedule s n with
      | some keys => complete (transform standardTables s.ipfp keys (inputBlock s)) s
      | none => .fault .slotWithoutValue
    else fail .eMismatch s
  else fail .eRounds s

end Sys2Proof.Machine
end

