-- ==== Sys2Proof/Machine/Control.lean ====
section
/-! DEFINITION. State access and control, commands NOP, RDSK, RDST, CLR (spec/44_access_and_control.md R160 to R163). -/

namespace Sys2Proof.Machine

open Sys2Proof

/-- NOP (R160). -/
def execNop (s : State) : Host.Outcome State Fault Refusal := complete 0#64 s

/-- RDSK (R161): the slot's subkey, or `E_INDEX` when the index is not below `SLEN`. -/
def execRdsk (i : Nat) (s : State) : Host.Outcome State Fault Refusal :=
  if i < s.slen.toNat then
    match readSlot s i with
    | some k => complete (zext64 k) s
    | none => .fault .slotWithoutValue
  else fail .eIndex s

/-- RDST (R162). -/
def execRdst (s : State) : Host.Outcome State Fault Refusal := complete (statusWord s) s

/-- CLR (R163). -/
def execClr (s : State) : Host.Outcome State Fault Refusal := complete 0#64 (clearState s)

end Sys2Proof.Machine
end

