-- ==== Sys2Proof/Machine/Schedule.lean ====
section
/-! DEFINITION. The round-key scheduler, command KSGEN (spec/41_key_schedule.md R100 to R107). -/

namespace Sys2Proof.Machine

open Sys2Proof

/-- The working registers `C` and `D` (R15). -/
structure HalfRegs where
  c : HalfReg
  d : HalfReg
  deriving DecidableEq, Repr

/-- Key selection: `cd0 = PERM(PC1, 64, key)`, `C_0 = cd0[55:28]`, `D_0 = cd0[27:0]` (R101). -/
def selectKey (T : Tables) (key : Data) : HalfRegs :=
  { c := (perm T.pc1 key).extractLsb' 28 28
    d := (perm T.pc1 key).extractLsb' 0 28 }

/-- Both half-registers rotate by the same amount (R102). -/
def rotateRegs (amount : Nat) (h : HalfRegs) : HalfRegs :=
  { c := rotl28 h.c amount, d := rotl28 h.d amount }

/-- The compression `PERM(PC2, 56, C ++ D)` (R102). -/
def compress (T : Tables) (h : HalfRegs) : Subkey := perm T.pc2 (h.c ++ h.d)

/-- The round steps for a list of rotation amounts: rotate, then compress; the rotations accumulate (R102). -/
def roundSteps (T : Tables) : List Nat → HalfRegs → List Subkey
  | [], _ => []
  | amount :: rest, h =>
    compress T (rotateRegs amount h) :: roundSteps T rest (rotateRegs amount h)

/-- The subkeys `K_1 .. K_n` as generated (R102). -/
def generatedSubkeys (T : Tables) (key : Data) (n : Nat) : List Subkey :=
  roundSteps T (T.shift.toList.take n) (selectKey T key)

/-- Forward order for encrypt, reverse order for decrypt (R103). -/
def storageOrder (dir : Direction) (keys : List Subkey) : List Subkey :=
  match dir with
  | .encrypt => keys
  | .decrypt => keys.reverse

/-- The schedule of `n` rounds for one direction, from slot 0 (R103). -/
def schedule (T : Tables) (dir : Direction) (n : Nat) (key : Data) : List Subkey :=
  storageOrder dir (generatedSubkeys T key n)

/-- KSGEN (R100): reject an illegal round count (R106), else replace the schedule (R107). -/
def execKsgen (dir : Direction) (n : Nat) (s : State) : Host.Outcome State Fault Refusal :=
  if legalRoundCount n then
    complete 0#64 (storeSchedule (schedule standardTables dir n (rawKey s)) n dir s)
  else fail .eRounds s

end Sys2Proof.Machine
end

