-- ==== Sys2Proof/Machine/Dispatch.lean ====
section
/-! DEFINITION. One arm per command of spec/opcode_table.json. -/

namespace Sys2Proof.Machine

def exec (i : Instr) (s : State) : Host.Outcome State Fault Refusal :=
  match i with
  | .nop => Sys2Proof.Machine.execNop s
  | .ksgen dir n => Sys2Proof.Machine.execKsgen dir n s
  | .crypt n => Sys2Proof.Machine.execCrypt n s
  | .ldfk => Sys2Proof.Machine.execLdfk s
  | .feval => Sys2Proof.Machine.execFeval s
  | .rdsk n => Sys2Proof.Machine.execRdsk n s
  | .rdst => Sys2Proof.Machine.execRdst s
  | .clr => Sys2Proof.Machine.execClr s

end Sys2Proof.Machine
end

