-- ==== Sys2Proof/Machine/Step.lean ====
section
/-! DEFINITION. One step: the host's next event (spec/00_scope.md R5, spec/20_memory.md R38, R44). There is no program
counter and no fetch (spec/10_state.md R17): the next command is the oldest pending one. -/

namespace Sys2Proof.Machine

open Sys2Proof

/-- Execute a command word: an illegal word fails (R54, R182), any other runs the command it names (R55). -/
def runWord (w : CmdWord) (s : State) : Host.Outcome State Fault Refusal :=
  match decode w with
  | .ok i => exec i s
  | .error _ => execIllegal s

/-- One step. With nothing pending the hardware holds its state (R191, R208); a reset is applied between commands
(R200); a command samples its inputs, executes atomically, and the host receives its outputs (R5, R20, R208). -/
def step (s : State) : Host.Outcome State Fault Refusal :=
  match s.pending with
  | [] => .next s
  | .reset :: rest => .next (applyReset (takeEvent rest s))
  | .command w d :: rest => finishCommand (runWord w (sampleInputs w d (takeEvent rest s)))

/-- The host issues one more command before all that is pending, with the value now on `wdata`; the very next step runs
it (assumption log 4). -/
def State.withFetchWord (s : State) (nbits w : Nat) : State :=
  { s with pending := .command (commandWord nbits w) s.wdata :: s.pending }

end Sys2Proof.Machine
end

