-- ==== Sys2Proof/Safety.lean ====
section
/-! DEFINITION. What holds of every state a run reaches, and the terms the statements use. -/

namespace Sys2Proof.Machine

open Sys2Proof

/-! ## The invariant -/

/-- A response as the hardware produces it: the status is one of the five codes (R181), and a failed command returned
`rdata = 0` (R187). -/
abbrev Response.Clean (r : Response) : Prop := r.status ≤ 4#4 ∧ (r.status ≠ 0#4 → r.rdata = 0#64)

/-- Exactly the slots below `SLEN` hold a value (R11, R107). -/
abbrev State.SlotsMatchLength (s : State) : Prop :=
  ∀ j : Fin 16, s.sk[j].isSome = decide (j.val < s.slen.toNat)

/-- The invariant of a run: `SLEN` is 0 to 16 (R12), the slots match it (R11), `SDIR` is 0 with no schedule (R13), the
output ports and every response received are clean (R181, R187). -/
structure State.Inv (s : State) : Prop where
  length_le : s.slen.toNat ≤ 16
  slots : s.SlotsMatchLength
  direction : s.slen = 0#5 → s.sdir = .encrypt
  ports : Response.Clean ⟨s.rdata, s.status⟩
  responses : ∀ r ∈ s.received, r.Clean

/-! ## The architectural state -/

/-- The complete architectural state of R10. -/
structure Arch where
  sk : Vector (Option Subkey) 16
  slen : BitVec 5
  sdir : Direction
  fk : Subkey
  deriving DecidableEq, Repr

/-- The architectural state of a state (R10). -/
def State.arch (s : State) : Arch := ⟨s.sk, s.slen, s.sdir, s.fk⟩

/-- Everything that is not architectural state and not the output ports: the instance's parameter, the input ports,
what the host holds. No command writes it. -/
structure Surroundings where
  ipfp : Ipfp
  cmd : CmdWord
  wdata : Data
  pending : List HostEvent
  received : List Response
  deriving DecidableEq, Repr

/-- The surroundings of a state. -/
def State.surroundings (s : State) : Surroundings := ⟨s.ipfp, s.cmd, s.wdata, s.pending, s.received⟩

/-! ## The recurrences of R101 and R102, round by round -/

/-- `C_i` and `D_i` of R102, with `C_0`, `D_0` of R101. -/
def halfRegsAt (T : Tables) (key : Data) : Nat → HalfRegs
  | 0 => selectKey T key
  | i + 1 => rotateRegs (T.shift.toList.getD i 0) (halfRegsAt T key i)

/-- `K_i` of R102. -/
def roundKey (T : Tables) (key : Data) (i : Nat) : Subkey := compress T (halfRegsAt T key i)

/-- `(L_r, R_r)` of R142 after `r` inner rounds under the subkeys `keys`. -/
def halvesAfter (T : Tables) (keys : List Subkey) (h : Halves) : Nat → Halves
  | 0 => h
  | r + 1 => innerRound T (keys.getD r 0#48) (halvesAfter T keys h r)

/-! ## The shapes of the tables -/

/-- Every number from 1 to `W` stands in the table exactly once. -/
abbrev IsPermutationTable {m : Nat} (W : Nat) (T : Vector Nat m) : Prop :=
  m = W ∧ ∀ n ∈ List.range W, T.toList.count (n + 1) = 1

/-- Every entry of the table is from 1 to `W`. -/
abbrev EntriesWithin {m : Nat} (W : Nat) (T : Vector Nat m) : Prop := ∀ t ∈ T.toList, 1 ≤ t ∧ t ≤ W

/-- `FP` undoes `IP`: `FP[IP[j]] = j` for every `j` (R87). -/
abbrev InverseTables (ip fp : Vector Nat 64) : Prop :=
  ∀ j : Fin 64, fp.toList.getD (ip[j] - 1) 0 = j.val + 1 ∧ ip.toList.getD (fp[j] - 1) 0 = j.val + 1

/-- The shapes of R72. -/
structure TableShapes (T : Tables) : Prop where
  pc1_range : EntriesWithin 64 T.pc1
  pc1_parity : ∀ t ∈ T.pc1.toList, t % 8 ≠ 0
  shift_range : EntriesWithin 2 T.shift
  pc2_range : EntriesWithin 56 T.pc2
  e_range : EntriesWithin 32 T.e
  e_covers : ∀ n ∈ List.range 32, n + 1 ∈ T.e.toList
  p_perm : IsPermutationTable 32 T.p
  ip_perm : IsPermutationTable 64 T.ip
  fp_perm : IsPermutationTable 64 T.fp
  inverse : InverseTables T.ip T.fp

/-! ## Illegal words and statuses, on the bits of the word -/

/-- The five conditions of R54, on the bits of R51. -/
abbrev IllegalWord (w : CmdWord) : Prop :=
  w.extractLsb' 9 3 ≠ 0#3 ∨ w.extractLsb' 5 3 ≠ 0#3 ∨ 8 ≤ (w.extractLsb' 12 4).toNat ∨
  (w.extractLsb' 8 1 = 1#1 ∧ (w.extractLsb' 12 4).toNat ≠ 1) ∨
  (w.extractLsb' 0 5 ≠ 0#5 ∧ (w.extractLsb' 12 4).toNat ∈ [0x0, 0x3, 0x4, 0x6, 0x7])

/-- The status of a command word by the check order of R55 and the priority of R186. -/
def statusByPriority (w : CmdWord) (slen : BitVec 5) : StatusCode :=
  let op := (w.extractLsb' 12 4).toNat
  let n := (w.extractLsb' 0 5).toNat
  if IllegalWord w then 1#4
  else if (op = 0x1 ∨ op = 0x2) ∧ (n < 1 ∨ 16 < n) then 2#4
  else if op = 0x2 ∧ n ≠ slen.toNat then 3#4
  else if op = 0x5 ∧ slen.toNat ≤ n then 4#4
  else 0#4

/-! ## Runs -/

/-- The commands among the host's events, in order (R208). -/
def commandsIn : List HostEvent → List (CmdWord × Data)
  | [] => []
  | .reset :: rest => commandsIn rest
  | .command w d :: rest => (w, d) :: commandsIn rest

end Sys2Proof.Machine
end

