-- ==== Sys2Proof/Certificates/Slice0/Obligations.lean ====
section
/-! DEFINITION. The statements for the provers, from the numbered rules of spec/. -/

open Sys2Proof Sys2Proof.Machine

/-! ## Encoding -/

/-- R50 to R53: the word of every well-formed command decodes to it. -/
def Obligations.DecodeOfEncode : Prop :=
  ∀ i : Instr, i.wellFormed = true → decode (encode i) = .ok i

/-- R50 to R53: every word that decodes is the word of a well-formed command. -/
def Obligations.EncodeOfDecode : Prop :=
  ∀ (w : CmdWord) (i : Instr), decode w = .ok i → i.wellFormed = true ∧ encode i = w

/-- R53: a word is the named command exactly when `w AND mask = match`, for the rows of the opcode map. -/
def Obligations.WordNamesCommandByMask : Prop :=
  opcodeTable =
    [⟨"NOP", 0x0000#16, 0xFFFF#16⟩, ⟨"KSGEN", 0x1000#16, 0xFEE0#16⟩, ⟨"CRYPT", 0x2000#16, 0xFFE0#16⟩,
     ⟨"LDFK", 0x3000#16, 0xFFFF#16⟩, ⟨"FEVAL", 0x4000#16, 0xFFFF#16⟩, ⟨"RDSK", 0x5000#16, 0xFFE0#16⟩,
     ⟨"RDST", 0x6000#16, 0xFFFF#16⟩, ⟨"CLR", 0x7000#16, 0xFFFF#16⟩] ∧
  ∀ row ∈ opcodeTable, ∀ w : CmdWord, (∃ i, decode w = .ok i ∧ rowOf i = row) ↔ w &&& row.mask = row.pattern

/-- R51, R52: `dir` is `cmd[8]` and `n` is the unsigned number `cmd[4:0]`, unscaled. -/
def Obligations.OperandsAreUnscaledFields : Prop :=
  ∀ w : CmdWord,
    (∀ d n, decode w = .ok (.ksgen d n) → d.bit = w.extractLsb' 8 1 ∧ n = w.toNat % 32) ∧
    (∀ n, decode w = .ok (.crypt n) → n = w.toNat % 32) ∧
    (∀ n, decode w = .ok (.rdsk n) → n = w.toNat % 32)

/-- R54, R182: a word is illegal exactly under R54's conditions, and then fails with `E_ILLEGAL`, `rdata = 0` and no
change of the architectural state, whatever the state. -/
def Obligations.IllegalWordFails : Prop :=
  (∀ w : CmdWord, (∃ e, decode w = .error e) ↔ IllegalWord w) ∧
  ∀ (s : State) (w : CmdWord), IllegalWord w → runWord w s = .next { s with rdata := 0#64, status := 1#4 }

/-- R58: the three pseudo-commands, each one command word. -/
def Obligations.PseudoCommandsExpand : Prop :=
  (∀ n, (Pseudo.ksenc n).expand = .ksgen .encrypt n) ∧ (∀ n, (Pseudo.ksdec n).expand = .ksgen .decrypt n) ∧
  Pseudo.discard.expand = .clr ∧
  ∀ n, n < 32 → encode (Pseudo.ksenc n).expand = 0x1000#16 ||| BitVec.ofNat 16 n ∧
    encode (Pseudo.ksdec n).expand = 0x1100#16 ||| BitVec.ofNat 16 n ∧ encode Pseudo.discard.expand = 0x7000#16

/-- The worked encodings of 30_encoding section 3, and two reserved words. -/
def Obligations.WorkedEncodingsDecode : Prop :=
  decode 0x1010#16 = .ok (.ksgen .encrypt 16) ∧ decode 0x1110#16 = .ok (.ksgen .decrypt 16) ∧
  decode 0x1003#16 = .ok (.ksgen .encrypt 3) ∧ decode 0x2010#16 = .ok (.crypt 16) ∧
  decode 0x2008#16 = .ok (.crypt 8) ∧ decode 0x3000#16 = .ok .ldfk ∧ decode 0x4000#16 = .ok .feval ∧
  decode 0x5000#16 = .ok (.rdsk 0) ∧ decode 0x500F#16 = .ok (.rdsk 15) ∧ decode 0x6000#16 = .ok .rdst ∧
  decode 0x7000#16 = .ok .clr ∧ decode 0x0000#16 = .ok .nop ∧
  decode 0x8000#16 = .error .reservedOpcode ∧ decode 0x1810#16 = .error .nonzeroZ1

/-! ## The step -/

/-- R5, R20, R38: a step runs the command its word names, on the sampled ports, and delivers the outputs; an illegal
word delivers its failure. The lists of events and of responses are the model's choice (assumption log 3). -/
def Obligations.StepRunsDecodedCommand : Prop :=
  ∀ (s : State) (w : CmdWord) (d : Data) (rest : List HostEvent), s.pending = .command w d :: rest →
    (∀ i, decode w = .ok i →
      step s =
        match exec i { s with pending := rest, cmd := w, wdata := d } with
        | .next t => .next { t with received := t.received ++ [⟨t.rdata, t.status⟩] }
        | .fault f => .fault f
        | .refused r => .refused r) ∧
    (∀ e, decode w = .error e →
      step s = .next { s with
        pending := rest, cmd := w, wdata := d, rdata := 0#64, status := 1#4
        received := s.received ++ [⟨0#64, 1#4⟩] })

/-- R191, R208: with nothing pending the hardware holds its state. That the ports keep their values, and the list of
pending events, are the model's choices (assumption log 9 and 3). -/
def Obligations.IdleStepHoldsState : Prop := ∀ s : State, s.pending = [] → step s = .next s

/-- R200: the reset event puts the architectural state into the reset state and does nothing else. That the ports keep
their values, and the list of pending events, are the model's choices (assumption log 9 and 3). -/
def Obligations.ResetEventClearsState : Prop :=
  ∀ (s : State) (rest : List HostEvent), s.pending = .reset :: rest →
    step s = .next { s with
      pending := rest, sk := Vector.replicate 16 none, slen := 0#5, sdir := .encrypt, fk := 0#48 }

/-- R21: the architectural state after reset. -/
def Obligations.ResetStateValues : Prop :=
  State.reset.slen = 0#5 ∧ State.reset.sdir.bit = 0#1 ∧ State.reset.fk = 0#48 ∧
  ∀ j : Fin 16, State.reset.sk[j] = none

/-- The reset state meets the invariant. The clause on the output ports rests on assumption log 2 and that on the
responses on log 3: model's choices. -/
def Obligations.ResetMeetsInvariant : Prop := State.reset.Inv

/-- R11, R12, R13, R181, R187: every step keeps the invariant. -/
def Obligations.StepKeepsInvariant : Prop := ∀ s t : State, s.Inv → step s = .next t → t.Inv

/-- R5, R180, R207: from a state that meets the invariant every step completes; nothing traps. -/
def Obligations.EveryStepCompletes : Prop := ∀ s : State, s.Inv → ∃ t, step s = .next t ∧ t.Inv

/-- R208: a run of all that is pending completes and delivers exactly one response for each command, in issue order.
The lists of events and of responses are the model's choice (assumption log 3). -/
def Obligations.RunDeliversOneResponsePerCommand : Prop :=
  ∀ s : State, s.Inv →
    ∃ t rs, Sys2Proof.core.run s.pending.length s = .next t ∧ t.pending = [] ∧ t.received = s.received ++ rs ∧
      rs.length = (commandsIn s.pending).length ∧ t.Inv

/-- D17, R162, R200: no step changes the parameter of the instance. -/
def Obligations.StepKeepsParameter : Prop := ∀ s t : State, step s = .next t → t.ipfp = s.ipfp

/-! ## Statuses -/

/-- R55, R186: the status of every command word, in every state, by the check order. -/
def Obligations.StatusFollowsPriority : Prop :=
  ∀ (s t : State) (w : CmdWord), runWord w s = .next t → t.status = statusByPriority w s.slen

/-- R187: a command that fails has changed no architectural state and has returned 0. -/
def Obligations.FailedCommandChangesNothing : Prop :=
  ∀ (s t : State) (w : CmdWord), runWord w s = .next t → t.status ≠ 0#4 →
    t.sk = s.sk ∧ t.slen = s.slen ∧ t.sdir = s.sdir ∧ t.fk = s.fk ∧ t.rdata = 0#64

/-- R183: `E_ROUNDS` is raised by KSGEN and CRYPT, exactly when the round count is not 1 to 16. -/
def Obligations.RoundsErrorExactly : Prop :=
  ∀ (i : Instr) (s t : State), exec i s = .next t →
    (t.status = 2#4 ↔ ∃ n, ((∃ d, i = .ksgen d n) ∨ i = .crypt n) ∧ ¬ (1 ≤ n ∧ n ≤ 16))

/-- R184: `E_MISMATCH` is raised by CRYPT alone, exactly when its legal round count is not `SLEN`. -/
def Obligations.MismatchErrorExactly : Prop :=
  ∀ (i : Instr) (s t : State), exec i s = .next t →
    (t.status = 3#4 ↔ ∃ n, i = .crypt n ∧ 1 ≤ n ∧ n ≤ 16 ∧ n ≠ s.slen.toNat)

/-- R185: `E_INDEX` is raised by RDSK alone, exactly when the index is not below `SLEN`. -/
def Obligations.IndexErrorExactly : Prop :=
  ∀ (i : Instr) (s t : State), exec i s = .next t →
    (t.status = 4#4 ↔ ∃ n, i = .rdsk n ∧ s.slen.toNat ≤ n)

/-- R106: KSGEN with a round count outside 1 to 16 fails and changes nothing. -/
def Obligations.KsgenRejectsRoundCount : Prop :=
  ∀ (s : State) (dir : Direction) (n : Nat), ¬ (1 ≤ n ∧ n ≤ 16) →
    exec (.ksgen dir n) s = .next { s with rdata := 0#64, status := 2#4 }

/-- R146, R147: CRYPT with a round count outside 1 to 16, and with a legal one that is not the schedule's length. -/
def Obligations.CryptRejectsRoundCount : Prop :=
  ∀ (s : State) (n : Nat),
    (¬ (1 ≤ n ∧ n ≤ 16) → exec (.crypt n) s = .next { s with rdata := 0#64, status := 2#4 }) ∧
    (1 ≤ n ∧ n ≤ 16 → n ≠ s.slen.toNat → exec (.crypt n) s = .next { s with rdata := 0#64, status := 3#4 })

/-- R201: with no schedule every CRYPT and every RDSK fails, and the other commands work. -/
def Obligations.NoScheduleFailsCryptAndRdsk : Prop :=
  ∀ s : State, s.slen = 0#5 →
    (∀ n, exec (.crypt n) s =
      .next { s with rdata := 0#64, status := if 1 ≤ n ∧ n ≤ 16 then 3#4 else 2#4 }) ∧
    (∀ i, exec (.rdsk i) s = .next { s with rdata := 0#64, status := 4#4 }) ∧
    (∀ i ∈ [Instr.nop, .rdst, .ldfk, .feval, .clr], ∃ t, exec i s = .next t ∧ t.status = 0#4)

/-! ## The commands -/

/-- R160: NOP does nothing, and the all-zero word is the only NOP. -/
def Obligations.NopDoesNothing : Prop :=
  (∀ s : State, exec .nop s = .next { s with rdata := 0#64, status := 0#4 }) ∧
  ∀ w : CmdWord, decode w = .ok .nop ↔ w = 0x0000#16

/-- R121: LDFK writes `FK` from `wdata[47:0]` and nothing else. -/
def Obligations.LdfkLoadsSubkey : Prop :=
  ∀ s : State, exec .ldfk s =
    .next { s with fk := BitVec.ofNat 48 (s.wdata.toNat % 2 ^ 48), rdata := 0#64, status := 0#4 }

/-- R120, R122: FEVAL returns the four steps of the round function on `wdata[31:0]` and `FK`, zero-extended, and
changes nothing. -/
def Obligations.FevalReturnsRoundFunction : Prop :=
  ∀ s : State, ∃ t, exec .feval s = .next t ∧ t = { s with rdata := t.rdata, status := 0#4 } ∧
    t.rdata.extractLsb' 32 32 = 0#32 ∧
    t.rdata.extractLsb' 0 32 =
      perm tableP (sub standardTables (perm tableE (s.wdata.extractLsb' 0 32) ^^^ s.fk))

/-- R100, R103, R107: KSGEN with a legal round count replaces the whole schedule. -/
def Obligations.KsgenReplacesSchedule : Prop :=
  ∀ (s : State) (dir : Direction) (n : Nat), 1 ≤ n ∧ n ≤ 16 →
    ∃ t, exec (.ksgen dir n) s = .next t ∧ t.slen.toNat = n ∧ t.sdir = dir ∧ t.fk = s.fk ∧
      (∀ j : Fin 16, t.sk[j] =
        if j.val < n then
          some (roundKey standardTables s.wdata (match dir with | .encrypt => j.val + 1 | .decrypt => n - j.val))
        else none) ∧
      t.rdata = 0#64 ∧ t.status = 0#4 ∧ t.surroundings = s.surroundings

/-- R140 to R145: CRYPT with the schedule's length runs the recurrences of the rounds and changes nothing. -/
def Obligations.CryptTransformsBlock : Prop :=
  ∀ (s : State) (n : Nat), 1 ≤ n ∧ n ≤ 16 → s.slen.toNat = n → (∀ j : Fin 16, j.val < n → s.sk[j].isSome) →
    ∃ (keys : List Subkey) (b' o : Data) (h : Halves) (k : Subkey),
      keys.length = n ∧ (∀ j : Fin 16, j.val < n → s.sk[j] = keys[j.val]?) ∧
      b' = (if s.ipfp = .present then perm tableIP s.wdata else s.wdata) ∧
      h = halvesAfter standardTables keys ⟨b'.extractLsb' 32 32, b'.extractLsb' 0 32⟩ (n - 1) ∧
      keys[n - 1]? = some k ∧
      o = (roundF standardTables h.r k ^^^ h.l) ++ h.r ∧
      exec (.crypt n) s = .next { s with
        rdata := if s.ipfp = .present then perm tableFP o else o
        status := 0#4 }

/-- R161: RDSK returns the slot, zero-extended, or fails with `E_INDEX`; it changes nothing. -/
def Obligations.RdskReadsSlot : Prop :=
  ∀ (s : State) (i : Nat),
    (∀ (h : i < 16) (k : Subkey), i < s.slen.toNat → s.sk[i] = some k →
      exec (.rdsk i) s = .next { s with rdata := 0#16 ++ k, status := 0#4 }) ∧
    (s.slen.toNat ≤ i → exec (.rdsk i) s = .next { s with rdata := 0#64, status := 4#4 })

/-- R162: RDST returns `SLEN` in [4:0], `SDIR` in [8], `IPFP` in [12] and 0 elsewhere, and changes nothing. -/
def Obligations.RdstReturnsStatusWord : Prop :=
  ∀ s : State, ∃ t, exec .rdst s = .next t ∧ t = { s with rdata := t.rdata, status := 0#4 } ∧
    t.rdata.extractLsb' 0 5 = s.slen ∧ t.rdata.extractLsb' 8 1 = s.sdir.bit ∧
    (t.rdata.getLsbD 12 = true ↔ s.ipfp = .present) ∧
    t.rdata.extractLsb' 5 3 = 0#3 ∧ t.rdata.extractLsb' 9 3 = 0#3 ∧ t.rdata.extractLsb' 13 51 = 0#51

/-- R162, corner case: after a KSGEN the low 9 bits of the status word are those of its command word. -/
def Obligations.StatusWordMirrorsKsgen : Prop :=
  ∀ (s t u : State) (dir : Direction) (n : Nat), 1 ≤ n ∧ n ≤ 16 →
    exec (.ksgen dir n) s = .next t → exec .rdst t = .next u →
    u.rdata.extractLsb' 0 9 = (encode (.ksgen dir n) &&& 0x011F#16).extractLsb' 0 9

/-- R163: CLR returns the architectural state to the reset state and changes nothing else. -/
def Obligations.ClrReturnsToReset : Prop :=
  ∀ s : State, exec .clr s = .next { s with
      sk := State.reset.sk, slen := State.reset.slen, sdir := State.reset.sdir, fk := State.reset.fk
      rdata := 0#64, status := 0#4 }

/-! ## Frames and independence -/

/-- R22: what each command leaves unchanged; a command that fails changes nothing. -/
def Obligations.StateChangesConfined : Prop :=
  ∀ (i : Instr) (s t : State), exec i s = .next t →
    t.surroundings = s.surroundings ∧ (t.status ≠ 0#4 → t.arch = s.arch) ∧
    match i with
    | .nop => t.arch = s.arch
    | .crypt _ => t.arch = s.arch
    | .feval => t.arch = s.arch
    | .rdsk _ => t.arch = s.arch
    | .rdst => t.arch = s.arch
    | .ldfk => t.sk = s.sk ∧ t.slen = s.slen ∧ t.sdir = s.sdir
    | .ksgen _ _ => t.fk = s.fk
    | .clr => True

/-- R6, R18: a command's result depends on the architectural state, the word, `wdata` and the parameter alone: not on
the outputs of earlier commands, nor on what else the host holds. -/
def Obligations.CommandDependsOnArchOnly : Prop :=
  ∀ (i : Instr) (s s' t : State), s.arch = s'.arch → s.wdata = s'.wdata → s.ipfp = s'.ipfp → exec i s = .next t →
    ∃ t', exec i s' = .next t' ∧ t'.arch = t.arch ∧ t'.rdata = t.rdata ∧ t'.status = t.status

/-- R6, R35: a command that changes no state may be repeated with the same result. -/
def Obligations.ReadCommandsRepeat : Prop :=
  ∀ (i : Instr) (s t : State),
    (i = .nop ∨ i = .feval ∨ i = .rdst ∨ (∃ n, i = .crypt n) ∨ (∃ n, i = .rdsk n)) →
    exec i s = .next t → exec i t = .next t

/-- R33: NOP, RDSK, RDST and CLR ignore `wdata`, LDFK ignores `wdata[63:48]`, FEVAL ignores `wdata[63:32]`. -/
def Obligations.IgnoredDataBits : Prop :=
  ∀ (i : Instr) (s t : State) (d : Data),
    ((i = .nop ∨ (∃ n, i = .rdsk n) ∨ i = .rdst ∨ i = .clr) ∨
      (i = .ldfk ∧ d.extractLsb' 0 48 = s.wdata.extractLsb' 0 48) ∨
      (i = .feval ∧ d.extractLsb' 0 32 = s.wdata.extractLsb' 0 32)) →
    exec i s = .next t → exec i { s with wdata := d } = .next { t with wdata := d }

/-- R13, R202: no command but RDST depends on `SDIR`. -/
def Obligations.DirectionIsNeverConsulted : Prop :=
  ∀ (i : Instr) (s t : State) (d : Direction), i ≠ .rdst → exec i s = .next t →
    ∃ t', exec i { s with sdir := d } = .next t' ∧ t'.rdata = t.rdata ∧ t'.status = t.status ∧
      t'.sk = t.sk ∧ t'.slen = t.slen ∧ t'.fk = t.fk

/-- R205: FEVAL uses `FK` and never the schedule, CRYPT uses the schedule and never `FK`; KSGEN leaves `FK`, LDFK leaves
the schedule. -/
def Obligations.SubkeyRegisterAndScheduleUnrelated : Prop :=
  (∀ (s t : State) (slots : Vector (Option Subkey) 16) (len : BitVec 5) (dir : Direction), exec .feval s = .next t →
    exec .feval { s with sk := slots, slen := len, sdir := dir } =
      .next { t with sk := slots, slen := len, sdir := dir }) ∧
  (∀ (s t : State) (n : Nat) (k : Subkey), exec (.crypt n) s = .next t →
    exec (.crypt n) { s with fk := k } = .next { t with fk := k }) ∧
  (∀ (s t : State) (dir : Direction) (n : Nat), exec (.ksgen dir n) s = .next t → t.fk = s.fk) ∧
  (∀ s t : State, exec .ldfk s = .next t → t.sk = s.sk ∧ t.slen = s.slen ∧ t.sdir = s.sdir)

/-! ## Networks -/

/-- R3, R70: output bit `j` of a network is input bit `T[j]`, bit 1 the most significant. -/
def Obligations.PermSelectsTableBits : Prop :=
  ∀ (m W : Nat) (T : Vector Nat m) (v : BitVec W) (j : Nat) (h : j < m),
    bitMsb (perm T v) (j + 1) = bitMsb v T[j] ∧
    (perm T v).getLsbD (m - (j + 1)) = v.getLsbD (W - T[j])

/-- R72, R74, R75: the shapes of the standard tables; the rotation amounts sum to 28; each half of `PC2` reads one
half-register; every row of every substitution table is a permutation of 0 to 15. -/
def Obligations.StandardTablesHaveStatedShapes : Prop :=
  TableShapes standardTables ∧ tableShift.toList.sum = 28 ∧
  (∀ t ∈ tablePC2.toList.take 24, t ≤ 28) ∧ (∀ t ∈ tablePC2.toList.drop 24, 29 ≤ t) ∧
  ∀ (j : Fin 8) (row : Fin 4) (v : BitVec 4),
    ((standardTables.sbox[j].toList.drop (16 * row.val)).take 16).count v = 1

/-- R87: `FP` is the inverse of `IP`. -/
def Obligations.FinalUndoesInitial : Prop :=
  (∀ j : Fin 64, tableFP.toList.getD (tableIP[j] - 1) 0 = j.val + 1) ∧
  ∀ v : Data, perm tableFP (perm tableIP v) = v ∧ perm tableIP (perm tableFP v) = v

/-- R88: the rotation by its formula, bit by bit, and the identity when the amounts sum to 28. -/
def Obligations.RotationLosesNoBit : Prop :=
  (∀ (v : HalfReg) (s : Nat), s = 1 ∨ s = 2 →
    (rotl28 v s).toNat = ((v.toNat <<< s) ||| (v.toNat >>> (28 - s))) % 2 ^ 28 ∧
    ∀ n, 1 ≤ n ∧ n ≤ 28 → bitMsb (rotl28 v s) n = bitMsb v ((n - 1 + s) % 28 + 1)) ∧
  ∀ (v : HalfReg) (amounts : List Nat), (∀ a ∈ amounts, a = 1 ∨ a = 2) → amounts.sum = 28 →
    amounts.foldl rotl28 v = v

/-- R90, R91: output nibble `j` is table `S_j` at row `2*g[5] + g[0]` and column `g[4:1]` of group `g_j`. -/
def Obligations.SubstitutionByRowAndColumn : Prop :=
  ∀ (T : Tables) (x : BitVec 48) (j : Fin 8),
    let g := x.toNat / 2 ^ (48 - 6 * (j.val + 1)) % 64
    some ((sub T x).extractLsb' (32 - 4 * (j.val + 1)) 4) =
      T.sbox[j].toList[16 * (2 * (g / 32) + g % 2) + g / 2 % 16]?

/-- R4, R32: the host's byte array on a 64-bit port, most significant byte first. -/
def Obligations.ByteArrayBitOrder : Prop :=
  ∀ (b : Vector (BitVec 8) 8) (n : Nat) (_ : 1 ≤ n) (h : n ≤ 64),
    bitMsb (blockOfBytes b) n = (b[(n - 1) / 8]'(by omega)).getLsbD (7 - (n - 1) % 8)

/-! ## The key schedule -/

/-- R101: the half-registers hold the bits `PC1` selects, the first 28 in `C`, the last 28 in `D`. -/
def Obligations.KeySelectionBits : Prop :=
  ∀ (key : Data) (b : Nat) (h : b < 28),
    bitMsb (halfRegsAt standardTables key 0).c (b + 1) = bitMsb key tablePC1[b] ∧
    bitMsb (halfRegsAt standardTables key 0).d (b + 1) = bitMsb key tablePC1[28 + b]

/-- R102: the generated subkeys are those of the round recurrence, in order. -/
def Obligations.GeneratedSubkeysFollowRecurrence : Prop :=
  ∀ (T : Tables) (key : Data) (n : Nat), n ≤ 16 →
    generatedSubkeys T key n = (List.range n).map fun i => roundKey T key (i + 1)

/-- R104: `K_i` depends on the key and on `i` only; an encrypt schedule is a prefix of every longer one from the same
key; the first slot of a decrypt schedule is `K_n`, which changes with `n`. -/
def Obligations.EncryptScheduleIsPrefix : Prop :=
  ∀ (T : Tables) (key : Data) (n m : Nat), 1 ≤ n → n ≤ m → m ≤ 16 →
    (∀ i, i < n → (schedule T .encrypt n key)[i]? = some (roundKey T key (i + 1))) ∧
    (schedule T .encrypt m key).take n = schedule T .encrypt n key ∧
    (schedule T .decrypt n key)[0]? = some (roundKey T key n)

/-- R101, R105: keys that agree at every bit but the parity positions 8, 16, ..., 64 give the same result of KSGEN. -/
def Obligations.ParityBitsHaveNoEffect : Prop :=
  ∀ (s : State) (key key' : Data) (dir : Direction) (n : Nat),
    (∀ b, 1 ≤ b ∧ b ≤ 64 → b % 8 ≠ 0 → bitMsb key b = bitMsb key' b) →
    ∃ t t', exec (.ksgen dir n) { s with wdata := key } = .next t ∧
      exec (.ksgen dir n) { s with wdata := key' } = .next t' ∧
      t.arch = t'.arch ∧ t.rdata = t'.rdata ∧ t.status = t'.status

/-- R100, corner cases: a key whose selected bits are all 0, or all 1, gives subkeys all 0, or all 1; after 16 rounds
the half-registers are back at their start. -/
def Obligations.ConstantKeysAndFullRotation : Prop :=
  (∀ (key : Data) (n : Nat), n ≤ 16 → perm tablePC1 key = 0#56 →
    ∀ k ∈ generatedSubkeys standardTables key n, k = 0#48) ∧
  (∀ (key : Data) (n : Nat), n ≤ 16 → perm tablePC1 key = BitVec.allOnes 56 →
    ∀ k ∈ generatedSubkeys standardTables key n, k = BitVec.allOnes 48) ∧
  ∀ key : Data, halfRegsAt standardTables key 16 = halfRegsAt standardTables key 0

/-! ## The round function and the block transform -/

/-- R123: `F` depends on its operands only through `PERM(E, 32, r) ^ k`. -/
def Obligations.RoundFunctionThroughXor : Prop :=
  ∀ (T : Tables) (r : Half) (k : Subkey), roundF T r k = roundF T 0#32 (k ^^^ perm T.e r)

/-- R123: an output bit of `F` depends on the six bits of the subkey and of the half-block that its table reads, and on
no other bit of either. -/
def Obligations.RoundFunctionBitDependency : Prop :=
  ∀ (r r' : Half) (k k' : Subkey) (b : Fin 32),
    let j := (tableP[b] - 1) / 4
    (∀ q, 6 * j + 1 ≤ q ∧ q ≤ 6 * j + 6 → bitMsb k q = bitMsb k' q ∧
      bitMsb r (tableE.toList.getD (q - 1) 0) = bitMsb r' (tableE.toList.getD (q - 1) 0)) →
    bitMsb (roundF standardTables r k) (b.val + 1) = bitMsb (roundF standardTables r' k') (b.val + 1)

/-- R148: the transforms under a schedule and its reverse are mutual inverses, for any subkeys, either setting of
`IPFP`, and any tables whose `FP` undoes their `IP`. -/
def Obligations.ReversedScheduleInverts : Prop :=
  ∀ (T : Tables) (p : Ipfp) (S : List Subkey) (b : Data),
    InverseTables T.ip T.fp → EntriesWithin 64 T.ip → EntriesWithin 64 T.fp → 1 ≤ S.length ∧ S.length ≤ 16 →
    transform T p S.reverse (transform T p S b) = b

/-- R148, on the machine: KSGEN and CRYPT in one direction, then KSGEN and CRYPT in the other with the same key and
round count, return the original block, from every state. The list of pending events is the model's choice (assumption log 3). -/
def Obligations.RunRoundTripReturnsBlock : Prop :=
  ∀ (s : State) (key b : Data) (n : Nat) (dir dir' : Direction), 1 ≤ n ∧ n ≤ 16 → dir ≠ dir' →
    ∃ t u,
      Sys2Proof.core.run 2 { s with
        pending := [.command (encode (.ksgen dir n)) key, .command (encode (.crypt n)) b] } = .next t ∧
      t.status = 0#4 ∧
      Sys2Proof.core.run 2 { t with
        pending := [.command (encode (.ksgen dir' n)) key, .command (encode (.crypt n)) t.rdata] } = .next u ∧
      u.status = 0#4 ∧ u.rdata = b

/-- R150: the two settings of `IPFP` differ by the wrapper alone. -/
def Obligations.WrapperRelatesSettings : Prop :=
  ∀ (S : List Subkey) (b : Data),
    transform standardTables .absent S b =
      perm tableIP (transform standardTables .present S (perm tableFP b))
end

