-- ==== Sys2Proof/Laws/Datapath.lean ====
section
/-! SUPPORT. The lengths of generated schedules and the shape of the round loop. -/

namespace Sys2Proof.Machine

open Sys2Proof

@[simp] theorem length_roundSteps (T : Tables) (l : List Nat) (h : HalfRegs) :
    (roundSteps T l h).length = l.length := by
  induction l generalizing h with
  | nil => rfl
  | cons a l ih => simp [roundSteps, ih]

theorem length_generatedSubkeys (T : Tables) (key : Data) {n : Nat} (h : n ≤ 16) :
    (generatedSubkeys T key n).length = n := by
  simp [generatedSubkeys, h]

@[simp] theorem length_storageOrder (dir : Direction) (ks : List Subkey) :
    (storageOrder dir ks).length = ks.length := by
  cases dir <;> simp [storageOrder]

theorem length_schedule (T : Tables) (dir : Direction) (key : Data) {n : Nat} (h : n ≤ 16) :
    (schedule T dir n key).length = n := by
  simp [schedule, length_generatedSubkeys T key h]

/-- Inner rounds under all subkeys but the last, then the final round (R142, R143, R145). -/
theorem feistelRounds_append (T : Tables) (ks : List Subkey) (k : Subkey) (h : Halves) :
    feistelRounds T (ks ++ [k]) h = finalRound T k (ks.foldl (fun h k => innerRound T k h) h) := by
  induction ks generalizing h with
  | nil => rfl
  | cons a ks ih =>
    cases ks with
    | nil => rfl
    | cons b ks => exact ih (innerRound T a h)

end Sys2Proof.Machine
end

