-- ==== Sys2Proof/Laws/Decode.lean ====
section
/-! SUPPORT. Splitting and joining the fields of a command word. -/

namespace Sys2Proof

theorem joinFields_splitWord (w : CmdWord) : joinFields (splitWord w) = w := by
  ext i hi
  simp [joinFields, splitWord]
  grind

theorem splitWord_joinFields (f : Fields) : splitWord (joinFields f) = f := by
  obtain ⟨op, z1, dir, z2, n⟩ := f
  simp only [splitWord, joinFields, Fields.mk.injEq]
  refine ⟨?_, ?_, ?_, ?_, ?_⟩ <;> ext i hi <;> simp <;> grind

theorem decode_encode_eq (i : Instr) : decode (encode i) = decodeFields (fieldsOf i) := by
  simp [decode, encode, splitWord_joinFields]

@[simp] theorem Direction.ofBit_bit (d : Direction) : Direction.ofBit d.bit = d := by cases d <;> decide

@[simp] theorem Direction.bit_ofBit (b : BitVec 1) : (Direction.ofBit b).bit = b := by
  revert b
  decide

end Sys2Proof
end

