-- ==== Sys2Proof/Laws/State.lean ====
section
/-! SUPPORT. One lemma per field of State per update, so that no proof unfolds a record update. -/

namespace Sys2Proof.Machine

open Sys2Proof

/-! ## driveOutputs -/

section

variable (d : Data) (c : Status) (s : State)

@[simp] theorem driveOutputs_sk : (driveOutputs d c s).sk = s.sk := rfl
@[simp] theorem driveOutputs_slen : (driveOutputs d c s).slen = s.slen := rfl
@[simp] theorem driveOutputs_sdir : (driveOutputs d c s).sdir = s.sdir := rfl
@[simp] theorem driveOutputs_fk : (driveOutputs d c s).fk = s.fk := rfl
@[simp] theorem driveOutputs_ipfp : (driveOutputs d c s).ipfp = s.ipfp := rfl
@[simp] theorem driveOutputs_cmd : (driveOutputs d c s).cmd = s.cmd := rfl
@[simp] theorem driveOutputs_wdata : (driveOutputs d c s).wdata = s.wdata := rfl
@[simp] theorem driveOutputs_rdata : (driveOutputs d c s).rdata = d := rfl
@[simp] theorem driveOutputs_status : (driveOutputs d c s).status = c.code := rfl
@[simp] theorem driveOutputs_pending : (driveOutputs d c s).pending = s.pending := rfl
@[simp] theorem driveOutputs_received : (driveOutputs d c s).received = s.received := rfl

end

/-! ## storeSchedule -/

section

variable (ks : List Subkey) (n : Nat) (dir : Direction) (s : State)

@[simp] theorem storeSchedule_sk : (storeSchedule ks n dir s).sk = slotsOf ks := rfl
@[simp] theorem storeSchedule_slen : (storeSchedule ks n dir s).slen = BitVec.ofNat 5 n := rfl
@[simp] theorem storeSchedule_sdir : (storeSchedule ks n dir s).sdir = dir := rfl
@[simp] theorem storeSchedule_fk : (storeSchedule ks n dir s).fk = s.fk := by simp only [storeSchedule]
@[simp] theorem storeSchedule_ipfp : (storeSchedule ks n dir s).ipfp = s.ipfp := by simp only [storeSchedule]
@[simp] theorem storeSchedule_cmd : (storeSchedule ks n dir s).cmd = s.cmd := by simp only [storeSchedule]
@[simp] theorem storeSchedule_wdata : (storeSchedule ks n dir s).wdata = s.wdata := by simp only [storeSchedule]
@[simp] theorem storeSchedule_rdata : (storeSchedule ks n dir s).rdata = s.rdata := by simp only [storeSchedule]
@[simp] theorem storeSchedule_status : (storeSchedule ks n dir s).status = s.status := by simp only [storeSchedule]
@[simp] theorem storeSchedule_pending : (storeSchedule ks n dir s).pending = s.pending := by simp only [storeSchedule]
@[simp] theorem storeSchedule_received : (storeSchedule ks n dir s).received = s.received := by simp only [storeSchedule]

end

/-! ## writeFK -/

section

variable (k : Subkey) (s : State)

@[simp] theorem writeFK_sk : (writeFK k s).sk = s.sk := rfl
@[simp] theorem writeFK_slen : (writeFK k s).slen = s.slen := rfl
@[simp] theorem writeFK_sdir : (writeFK k s).sdir = s.sdir := rfl
@[simp] theorem writeFK_fk : (writeFK k s).fk = k := rfl
@[simp] theorem writeFK_ipfp : (writeFK k s).ipfp = s.ipfp := rfl
@[simp] theorem writeFK_cmd : (writeFK k s).cmd = s.cmd := rfl
@[simp] theorem writeFK_wdata : (writeFK k s).wdata = s.wdata := rfl
@[simp] theorem writeFK_rdata : (writeFK k s).rdata = s.rdata := rfl
@[simp] theorem writeFK_status : (writeFK k s).status = s.status := rfl
@[simp] theorem writeFK_pending : (writeFK k s).pending = s.pending := rfl
@[simp] theorem writeFK_received : (writeFK k s).received = s.received := rfl

end

/-! ## clearState -/

section

variable (s : State)

@[simp] theorem clearState_sk : (clearState s).sk = Vector.replicate 16 none := rfl
@[simp] theorem clearState_slen : (clearState s).slen = 0#5 := rfl
@[simp] theorem clearState_sdir : (clearState s).sdir = .encrypt := rfl
@[simp] theorem clearState_fk : (clearState s).fk = 0#48 := rfl
@[simp] theorem clearState_ipfp : (clearState s).ipfp = s.ipfp := rfl
@[simp] theorem clearState_cmd : (clearState s).cmd = s.cmd := rfl
@[simp] theorem clearState_wdata : (clearState s).wdata = s.wdata := rfl
@[simp] theorem clearState_rdata : (clearState s).rdata = s.rdata := rfl
@[simp] theorem clearState_status : (clearState s).status = s.status := rfl
@[simp] theorem clearState_pending : (clearState s).pending = s.pending := rfl
@[simp] theorem clearState_received : (clearState s).received = s.received := rfl

end

/-! ## takeEvent -/

section

variable (es : List HostEvent) (s : State)

@[simp] theorem takeEvent_sk : (takeEvent es s).sk = s.sk := rfl
@[simp] theorem takeEvent_slen : (takeEvent es s).slen = s.slen := rfl
@[simp] theorem takeEvent_sdir : (takeEvent es s).sdir = s.sdir := rfl
@[simp] theorem takeEvent_fk : (takeEvent es s).fk = s.fk := rfl
@[simp] theorem takeEvent_ipfp : (takeEvent es s).ipfp = s.ipfp := rfl
@[simp] theorem takeEvent_cmd : (takeEvent es s).cmd = s.cmd := rfl
@[simp] theorem takeEvent_wdata : (takeEvent es s).wdata = s.wdata := rfl
@[simp] theorem takeEvent_rdata : (takeEvent es s).rdata = s.rdata := rfl
@[simp] theorem takeEvent_status : (takeEvent es s).status = s.status := rfl
@[simp] theorem takeEvent_pending : (takeEvent es s).pending = es := rfl
@[simp] theorem takeEvent_received : (takeEvent es s).received = s.received := rfl

end

/-! ## sampleInputs -/

section

variable (w : CmdWord) (d : Data) (s : State)

@[simp] theorem sampleInputs_sk : (sampleInputs w d s).sk = s.sk := rfl
@[simp] theorem sampleInputs_slen : (sampleInputs w d s).slen = s.slen := rfl
@[simp] theorem sampleInputs_sdir : (sampleInputs w d s).sdir = s.sdir := rfl
@[simp] theorem sampleInputs_fk : (sampleInputs w d s).fk = s.fk := rfl
@[simp] theorem sampleInputs_ipfp : (sampleInputs w d s).ipfp = s.ipfp := rfl
@[simp] theorem sampleInputs_cmd : (sampleInputs w d s).cmd = w := rfl
@[simp] theorem sampleInputs_wdata : (sampleInputs w d s).wdata = d := rfl
@[simp] theorem sampleInputs_rdata : (sampleInputs w d s).rdata = s.rdata := rfl
@[simp] theorem sampleInputs_status : (sampleInputs w d s).status = s.status := rfl
@[simp] theorem sampleInputs_pending : (sampleInputs w d s).pending = s.pending := rfl
@[simp] theorem sampleInputs_received : (sampleInputs w d s).received = s.received := rfl

end

/-! ## collectOutputs -/

section

variable (s : State)

@[simp] theorem collectOutputs_sk : (collectOutputs s).sk = s.sk := rfl
@[simp] theorem collectOutputs_slen : (collectOutputs s).slen = s.slen := rfl
@[simp] theorem collectOutputs_sdir : (collectOutputs s).sdir = s.sdir := rfl
@[simp] theorem collectOutputs_fk : (collectOutputs s).fk = s.fk := rfl
@[simp] theorem collectOutputs_ipfp : (collectOutputs s).ipfp = s.ipfp := rfl
@[simp] theorem collectOutputs_cmd : (collectOutputs s).cmd = s.cmd := rfl
@[simp] theorem collectOutputs_wdata : (collectOutputs s).wdata = s.wdata := rfl
@[simp] theorem collectOutputs_rdata : (collectOutputs s).rdata = s.rdata := rfl
@[simp] theorem collectOutputs_status : (collectOutputs s).status = s.status := rfl
@[simp] theorem collectOutputs_pending : (collectOutputs s).pending = s.pending := rfl
@[simp] theorem collectOutputs_received : (collectOutputs s).received = s.received ++ [⟨s.rdata, s.status⟩] := rfl

end

/-! ## The architectural state and the surroundings -/

section

variable (s : State)

@[simp] theorem driveOutputs_arch (d : Data) (c : Status) : (driveOutputs d c s).arch = s.arch := rfl
@[simp] theorem takeEvent_arch (es : List HostEvent) : (takeEvent es s).arch = s.arch := rfl
@[simp] theorem sampleInputs_arch (w : CmdWord) (d : Data) : (sampleInputs w d s).arch = s.arch := rfl
@[simp] theorem collectOutputs_arch : (collectOutputs s).arch = s.arch := rfl
@[simp] theorem clearState_arch : (clearState s).arch = State.reset.arch := rfl
@[simp] theorem driveOutputs_surroundings (d : Data) (c : Status) :
    (driveOutputs d c s).surroundings = s.surroundings := rfl
@[simp] theorem storeSchedule_surroundings (ks : List Subkey) (n : Nat) (dir : Direction) :
    (storeSchedule ks n dir s).surroundings = s.surroundings := by simp [State.surroundings]
@[simp] theorem writeFK_surroundings (k : Subkey) : (writeFK k s).surroundings = s.surroundings := rfl
@[simp] theorem clearState_surroundings : (clearState s).surroundings = s.surroundings := rfl

end

end Sys2Proof.Machine
end

