-- ==== Sys2Proof/Laws/Ops.lean ====
section
/-! SUPPORT. What each shared operation of Machine/Ops.lean and Machine/Operands.lean can do, said once. -/

namespace Sys2Proof.Machine

open Sys2Proof

/-! ## Ending a command -/

theorem complete_eq_next {d : Data} {s t : State} (h : complete d s = .next t) : t = driveOutputs d .ok s := by
  simpa [complete] using h.symm

theorem fail_eq_next {c : Status} {s t : State} (h : fail c s = .next t) : t = driveOutputs 0#64 c s := by
  simpa [fail] using h.symm

theorem finishCommand_eq_next {o : Host.Outcome State Fault Refusal} {t : State} (h : finishCommand o = .next t) :
    ∃ u, o = .next u ∧ t = collectOutputs u := by
  cases o with
  | next u => exact ⟨u, rfl, by simpa [finishCommand] using h.symm⟩
  | fault f => simp [finishCommand] at h
  | refused r => simp [finishCommand] at h

@[simp] theorem finishCommand_next (u : State) : finishCommand (.next u) = .next (collectOutputs u) := rfl

/-! ## Status codes and round counts -/

@[simp] theorem code_ok : Status.ok.code = 0#4 := rfl
@[simp] theorem code_eIllegal : Status.eIllegal.code = 1#4 := rfl
@[simp] theorem code_eRounds : Status.eRounds.code = 2#4 := rfl
@[simp] theorem code_eMismatch : Status.eMismatch.code = 3#4 := rfl
@[simp] theorem code_eIndex : Status.eIndex.code = 4#4 := rfl

theorem code_le (c : Status) : c.code ≤ 4#4 := by cases c <;> decide

theorem code_eq_zero_iff (c : Status) : c.code = 0#4 ↔ c = .ok := by cases c <;> decide

theorem legalRoundCount_iff (n : Nat) : legalRoundCount n = true ↔ 1 ≤ n ∧ n ≤ 16 := by
  simp [legalRoundCount]

/-! ## The schedule store -/

/-- The values of a list of slots are what the slots hold, when all of them hold one. -/
theorem allHeld_eq_some_iff {l : List (Option Subkey)} {ks : List Subkey} :
    allHeld l = some ks ↔ l = ks.map some := by
  induction l generalizing ks with
  | nil => cases ks <;> simp [allHeld]
  | cons a l ih =>
    cases a with
    | none => cases ks <;> simp [allHeld]
    | some k =>
      cases ks with
      | nil => simp [allHeld]
      | cons k' ks => simp [allHeld, ih, and_comm]

/-- A list of slots of which none is empty has its values. -/
theorem exists_allHeld {l : List (Option Subkey)} (h : ∀ o ∈ l, o.isSome) : ∃ ks, allHeld l = some ks := by
  induction l with
  | nil => exact ⟨[], rfl⟩
  | cons a l ih =>
    obtain ⟨ks, hks⟩ := ih fun o ho => h o (by simp [ho])
    obtain ⟨k, rfl⟩ := Option.isSome_iff_exists.mp (h a (by simp))
    exact ⟨k :: ks, by simp [allHeld, hks]⟩

@[simp] theorem slotsOf_getElem (ks : List Subkey) (j : Nat) (h : j < 16) : (slotsOf ks)[j] = ks[j]? := by
  simp [slotsOf]

theorem readSlot_of_lt {s : State} {i : Nat} (h : i < 16) : readSlot s i = s.sk[i] := by simp [readSlot, h]

/-- What `readSchedule` reads: slot `i` holds entry `i`, for every `i` below the count. -/
theorem readSchedule_eq_some {s : State} {n : Nat} {ks : List Subkey} (hn : n ≤ 16)
    (h : readSchedule s n = some ks) : ks.length = n ∧ ∀ i (hi : i < 16), i < n → s.sk[i] = ks[i]? := by
  have hl := allHeld_eq_some_iff.mp h
  have hlen : ks.length = n := by
    have := congrArg List.length hl
    simp at this
    omega
  refine ⟨hlen, fun i hi hin => ?_⟩
  have := congrArg (·[i]?) hl
  simpa [List.getElem?_take, hin, hi, hlen] using this

/-- A store that holds exactly the list `ks` gives it back. -/
theorem readSchedule_slotsOf {s : State} {ks : List Subkey} (hs : s.sk = slotsOf ks) (hn : ks.length ≤ 16) :
    readSchedule s ks.length = some ks := by
  rw [readSchedule, allHeld_eq_some_iff, hs]
  apply List.ext_getElem?
  intro i
  by_cases hi : i < ks.length
  · have : i < 16 := by omega
    simp [hi, this]
  · simp [hi]

/-- Where every slot below the count holds a value, the schedule can be read. -/
theorem exists_readSchedule {s : State} {n : Nat} (h : ∀ j : Fin 16, j.val < n → s.sk[j].isSome) :
    ∃ ks, readSchedule s n = some ks := by
  apply exists_allHeld
  intro o ho
  obtain ⟨i, hi, rfl⟩ := List.mem_iff_getElem.mp ho
  simp at hi ⊢
  exact h ⟨i, by omega⟩ (by simp; omega)

end Sys2Proof.Machine
end

