-- ==== Sys2Proof/Laws/Exec.lean ====
section
/-! SUPPORT. What each meaning can do: one inversion lemma for each command that checks something. -/

namespace Sys2Proof.Machine

open Sys2Proof

/-- KSGEN either replaces the schedule or fails with `E_ROUNDS`. -/
theorem execKsgen_eq_next {dir : Direction} {n : Nat} {s t : State} (h : execKsgen dir n s = .next t) :
    (1 ≤ n ∧ n ≤ 16 ∧
      t = driveOutputs 0#64 .ok (storeSchedule (schedule standardTables dir n (rawKey s)) n dir s)) ∨
    (¬ (1 ≤ n ∧ n ≤ 16) ∧ t = driveOutputs 0#64 .eRounds s) := by
  unfold execKsgen at h
  split at h
  · rename_i hn
    obtain ⟨h1, h2⟩ := (legalRoundCount_iff n).mp hn
    exact .inl ⟨h1, h2, complete_eq_next h⟩
  · rename_i hn
    exact .inr ⟨fun hl => hn ((legalRoundCount_iff n).mpr hl), fail_eq_next h⟩

/-- CRYPT either transforms, or fails with `E_MISMATCH`, or fails with `E_ROUNDS`. -/
theorem execCrypt_eq_next {n : Nat} {s t : State} (h : execCrypt n s = .next t) :
    (1 ≤ n ∧ n ≤ 16 ∧ n = s.slen.toNat ∧ ∃ ks, readSchedule s n = some ks ∧
      t = driveOutputs (transform standardTables s.ipfp ks (inputBlock s)) .ok s) ∨
    (1 ≤ n ∧ n ≤ 16 ∧ n ≠ s.slen.toNat ∧ t = driveOutputs 0#64 .eMismatch s) ∨
    (¬ (1 ≤ n ∧ n ≤ 16) ∧ t = driveOutputs 0#64 .eRounds s) := by
  unfold execCrypt at h
  split at h
  · rename_i hn
    obtain ⟨h1, h2⟩ := (legalRoundCount_iff n).mp hn
    split at h
    · rename_i hlen
      split at h
      · rename_i ks hks
        exact .inl ⟨h1, h2, hlen, ks, hks, complete_eq_next h⟩
      · cases h
    · rename_i hlen
      exact .inr (.inl ⟨h1, h2, hlen, fail_eq_next h⟩)
  · rename_i hn
    exact .inr (.inr ⟨fun hl => hn ((legalRoundCount_iff n).mpr hl), fail_eq_next h⟩)

/-- RDSK either reads the slot or fails with `E_INDEX`. -/
theorem execRdsk_eq_next {i : Nat} {s t : State} (h : execRdsk i s = .next t) :
    (i < s.slen.toNat ∧ ∃ k, readSlot s i = some k ∧ t = driveOutputs (zext64 k) .ok s) ∨
    (s.slen.toNat ≤ i ∧ t = driveOutputs 0#64 .eIndex s) := by
  unfold execRdsk at h
  split at h
  · rename_i hi
    split at h
    · rename_i k hk
      exact .inl ⟨hi, k, hk, complete_eq_next h⟩
    · cases h
  · rename_i hi
    exact .inr ⟨Nat.le_of_not_lt hi, fail_eq_next h⟩

end Sys2Proof.Machine
end

