-- ==== Sys2Proof/Laws/Networks.lean ====
section
/-! SUPPORT. The bits of a bit selection and of a rotation, least significant bit first. -/

namespace Sys2Proof.Machine

open Sys2Proof

theorem getLsbD_permFold {m W : Nat} (v : BitVec W) (l : List Nat) (y : BitVec m) (i : Nat) :
    (l.foldl (fun (y : BitVec m) t => (y <<< 1) ||| (BitVec.ofBool (bitMsb v t)).setWidth m) y).getLsbD i =
      (decide (i < m) && if i < l.length then bitMsb v (l.getD (l.length - 1 - i) 0)
        else y.getLsbD (i - l.length)) := by
  induction l generalizing y i with
  | nil =>
    by_cases h : i < m
    · simp [h]
    · simp [h, BitVec.getLsbD_of_ge _ _ (Nat.le_of_not_lt h)]
  | cons t l ih =>
    rw [List.foldl_cons, ih]
    by_cases him : i < m
    · rcases Nat.lt_trichotomy i l.length with h | h | h
      · have e : l.length - i = (l.length - 1 - i) + 1 := by omega
        simp [him, h, Nat.lt_succ_of_lt h, e]
      · subst h
        have hm : 0 < m := by omega
        simp [hm]
      · have h1 : ¬ i < l.length := by omega
        have h2 : ¬ i < l.length + 1 := by omega
        have h3 : i - l.length ≠ 0 := by omega
        have h4 : i - l.length - 1 = i - (l.length + 1) := by omega
        have h5 : i - l.length < m := by omega
        have h6 : i - (l.length + 1) < m := by omega
        simp [him, h1, h2, h3, h4, h5, h6]
    · simp [him]

/-- R70, in LSB-0 terms: `y[i] = v[W - T[m - i]]`. -/
theorem getLsbD_perm {m W : Nat} (T : Vector Nat m) (v : BitVec W) (i : Nat) (h : i < m) :
    (perm T v).getLsbD i = v.getLsbD (W - T[m - 1 - i]) := by
  rw [perm, getLsbD_permFold]
  have : m - 1 - i < m := by omega
  simp [h, bitMsb, this]

/-- The rotation, bit by bit (R88). -/
theorem getLsbD_rotl28 (v : HalfReg) {s : Nat} (hs : s ≤ 28) (i : Nat) (h : i < 28) :
    (rotl28 v s).getLsbD i = v.getLsbD ((i + 28 - s) % 28) := by
  have hr : (rotl28 v s).getLsbD i =
      ((!decide (i < s) && v.getLsbD (i - s)) || v.getLsbD (28 - s + i)) := by
    simp [rotl28, h, -BitVec.getLsbD_eq_getElem]
  rw [hr]
  by_cases his : i < s
  · have e : (i + 28 - s) % 28 = 28 - s + i := by omega
    simp [his, e]
  · have e : (i + 28 - s) % 28 = i - s := by omega
    have g : v.getLsbD (28 - s + i) = false := BitVec.getLsbD_of_ge _ _ (by omega)
    simp [his, e, g]

end Sys2Proof.Machine
end

