-- ==== Sys2Proof/Laws/PerInstr.lean ====
section
/-! SUPPORT. Statements made command by command. `MatchMask`: the word of a command meets the match and mask of its row
of the opcode table (R53). -/

namespace Sys2Proof.Laws.MatchMask

open Sys2Proof

/-- The word of the command meets its row. -/
def Statement (i : Instr) : Prop := encode i &&& (rowOf i).mask = (rowOf i).pattern

theorem nop : Statement .nop := by
  unfold Statement
  decide

theorem ksgen (dir : Direction) (n : Nat) : Statement (.ksgen dir n) := by
  show joinFields ⟨0x1#4, 0#3, dir.bit, 0#3, BitVec.ofNat 5 n⟩ &&& 0xFEE0#16 = 0x1000#16
  generalize BitVec.ofNat 5 n = k
  revert k
  cases dir <;> decide +kernel

theorem crypt (n : Nat) : Statement (.crypt n) := by
  show joinFields ⟨0x2#4, 0#3, 0#1, 0#3, BitVec.ofNat 5 n⟩ &&& 0xFFE0#16 = 0x2000#16
  generalize BitVec.ofNat 5 n = k
  revert k
  decide +kernel

theorem ldfk : Statement .ldfk := by
  unfold Statement
  decide

theorem feval : Statement .feval := by
  unfold Statement
  decide

theorem rdsk (i : Nat) : Statement (.rdsk i) := by
  show joinFields ⟨0x5#4, 0#3, 0#1, 0#3, BitVec.ofNat 5 i⟩ &&& 0xFFE0#16 = 0x5000#16
  generalize BitVec.ofNat 5 i = k
  revert k
  decide +kernel

theorem rdst : Statement .rdst := by
  unfold Statement
  decide

theorem clr : Statement .clr := by
  unfold Statement
  decide

end Sys2Proof.Laws.MatchMask
end

