-- ==== Sys2Proof/Laws/Step.lean ====
section
/-! SUPPORT. What a step can do, by the host's next event. -/

namespace Sys2Proof.Machine

open Sys2Proof

theorem step_of_nil {s : State} (h : s.pending = []) : step s = .next s := by simp [step, h]

theorem step_of_reset {s : State} {rest : List HostEvent} (h : s.pending = .reset :: rest) :
    step s = .next (applyReset (takeEvent rest s)) := by simp [step, h]

theorem step_of_command {s : State} {w : CmdWord} {d : Data} {rest : List HostEvent}
    (h : s.pending = .command w d :: rest) :
    step s = finishCommand (runWord w (sampleInputs w d (takeEvent rest s))) := by simp [step, h]

/-- A step that answers a next state is idle, a reset, or a command whose outputs were collected. -/
theorem step_eq_next {s t : State} (h : step s = .next t) :
    (s.pending = [] ∧ t = s) ∨
    (∃ rest, s.pending = .reset :: rest ∧ t = applyReset (takeEvent rest s)) ∨
    (∃ w d rest u, s.pending = .command w d :: rest ∧
      runWord w (sampleInputs w d (takeEvent rest s)) = .next u ∧ t = collectOutputs u) := by
  match hp : s.pending with
  | [] => exact .inl ⟨rfl, by simpa [step_of_nil hp] using h.symm⟩
  | .reset :: rest => exact .inr (.inl ⟨rest, rfl, by simpa [step_of_reset hp] using h.symm⟩)
  | .command w d :: rest =>
    rw [step_of_command hp] at h
    obtain ⟨u, hu, ht⟩ := finishCommand_eq_next h
    exact .inr (.inr ⟨w, d, rest, u, rfl, hu, ht⟩)

/-- Running a word runs the command it names, or fails. -/
theorem runWord_eq_next {w : CmdWord} {s t : State} (h : runWord w s = .next t) :
    (∃ i, decode w = .ok i ∧ exec i s = .next t) ∨
    (∃ e, decode w = .error e ∧ t = driveOutputs 0#64 .eIllegal s) := by
  unfold runWord at h
  split at h
  · rename_i i hi
    exact .inl ⟨i, hi, h⟩
  · rename_i e he
    exact .inr ⟨e, he, fail_eq_next h⟩

end Sys2Proof.Machine
end

