-- ==== Sys2Proof/Tests/Slice0.lean ====
section
/-! SUPPORT. Tests against the spec's own vectors (spec/95_test_vectors.md, spec/96_test_vectors_traces.md and the
examples of the rules), the smoke test of WellFormed, and a witness for the hypotheses of every statement of
Certificates/Slice0/Obligations.lean that has any. Every expected value is the spec's, not the model's. -/

set_option Elab.async false

namespace Sys2Proof.Tests

open Sys2Proof Sys2Proof.Machine

/-! ## Small states -/

/-- The next state of an outcome, if it is one. -/
def nextOf : Host.Outcome State Fault Refusal → Option State
  | .next t => some t
  | .fault _ => none
  | .refused _ => none

/-- The reset state of an instance with this setting of `IPFP`. -/
def blank (p : Ipfp) : State := { State.reset with ipfp := p }

/-- An instance that holds these subkeys as its encrypt schedule. -/
def holding (p : Ipfp) (keys : List Subkey) : State :=
  { blank p with sk := slotsOf keys, slen := BitVec.ofNat 5 keys.length }

/-- The subkeys of `0x133457799BBCDFF1`, from the table of 41_key_schedule section 4. -/
def printedKeys : List Subkey :=
  [0x1B02EFFC7072#48, 0x79AED9DBC9E5#48, 0x55FC8A42CF99#48, 0x72ADD6DB351D#48, 0x7CEC07EB53A8#48, 0x63A53E507B2F#48,
   0xEC84B7F618BC#48, 0xF78A3AC13BFB#48, 0xE0DBEBEDE781#48, 0xB1F347BA464F#48, 0x215FD3DED386#48, 0x7571F59467E9#48,
   0x97C5D1FABA41#48, 0x5F43B7F2E73A#48, 0xBF918D3D3F0A#48, 0xCB3D8B0E17F5#48]

/-- A two-round decrypt schedule with a subkey in `FK`, and one block on `wdata`. -/
def loaded : State :=
  { holding .present (printedKeys.take 2) with sdir := .decrypt, fk := 0xAAAAAAAAAAAA#48, wdata := 0x0123456789ABCDEF#64 }

/-- The state with one command issued. -/
def issue (w : CmdWord) (d : Data) (s : State) : State := { s with pending := [.command w d] }

/-- The outputs of a command. -/
def outputs (o : Host.Outcome State Fault Refusal) : Option (Data × StatusCode) :=
  (nextOf o).map fun t => (t.rdata, t.status)

/-- The outcome is a next state. -/
theorem next_of_isSome {o : Host.Outcome State Fault Refusal} (h : (nextOf o).isSome = true) : ∃ t, o = .next t := by
  cases o with
  | next t => exact ⟨t, rfl⟩
  | fault f => simp [nextOf] at h
  | refused r => simp [nextOf] at h

/-! ## WellFormed: an ill-formed term for each check -/

theorem test_wellFormed_ksgen_refuses : (Instr.ksgen .encrypt 32).wellFormed = false := by decide
theorem test_wellFormed_crypt_refuses : (Instr.crypt 32).wellFormed = false := by decide
theorem test_wellFormed_rdsk_refuses : (Instr.rdsk 32).wellFormed = false := by decide

/-! ## Decoding: one word for each command, written bit by bit from R51 and R53 (op, z1, dir, z2, n) -/

theorem test_decode_nop : decode 0b0000_000_0_000_00000#16 = .ok .nop := by decide
theorem test_decode_ksgen : decode 0b0001_000_1_000_10000#16 = .ok (.ksgen .decrypt 16) := by decide
theorem test_decode_crypt : decode 0b0010_000_0_000_01000#16 = .ok (.crypt 8) := by decide
theorem test_decode_ldfk : decode 0b0011_000_0_000_00000#16 = .ok .ldfk := by decide
theorem test_decode_feval : decode 0b0100_000_0_000_00000#16 = .ok .feval := by decide
theorem test_decode_rdsk : decode 0b0101_000_0_000_01111#16 = .ok (.rdsk 15) := by decide
theorem test_decode_rdst : decode 0b0110_000_0_000_00000#16 = .ok .rdst := by decide
theorem test_decode_clr : decode 0b0111_000_0_000_00000#16 = .ok .clr := by decide

/-- Illegal words of 95_test_vectors sections 3.2 to 3.6, one for each condition of R54. -/
theorem test_decode_illegal :
    decode 0x1210#16 = .error .nonzeroZ1 ∧ decode 0x1030#16 = .error .nonzeroZ2 ∧
    decode 0xF123#16 = .error .nonzeroZ2 ∧ decode 0x9010#16 = .error .reservedOpcode ∧
    decode 0x2111#16 = .error .unusedDirection ∧ decode 0x7001#16 = .error .unusedCount := by decide

/-- The host's two entry points agree with the decoder and the step (R53: `CRYPT 16` is 0x2010). -/
theorem test_fetch_word : decodeTableWord 16 0x2010 = some (.crypt 16) ∧
    outputs (step ((blank .absent).withFetchWord 16 0x2010)) = some (0#64, 3#4) := by decide +kernel

/-- The script notation of R57, on the worked example of R100. -/
theorem test_script : scriptLine (.ksgen .encrypt 3) 0x10#64 = "KSGEN ENC, 3 <- 16" ∧
    scriptExpect (.rdsk 3) 0#64 0#64 4#4 = "RDSK 3 -> 0 4" := by decide +kernel

/-! ## Networks (95_test_vectors section 3.1) -/

theorem test_pc1 : perm tablePC1 0x133457799BBCDFF1#64 = 0xF0CCAAF556678F#56 ∧
    perm tablePC1 0x0000001000000000#64 = 0x00000000000008#56 := by decide +kernel
theorem test_pc2 : perm tablePC2 0xE19955FAACCF1E#56 = 0x1B02EFFC7072#48 ∧
    perm tablePC2 0x00000001000000#56 = 0x000000000001#48 := by decide +kernel
theorem test_e : perm tableE 0xF0AAF0AA#32 = 0x7A15557A1555#48 ∧
    perm tableE 0x08000000#32 = 0x050000000000#48 := by decide +kernel
theorem test_p : perm tableP 0x5C82B597#32 = 0x234AA9BB#32 ∧
    perm tableP 0x00010000#32 = 0x80000000#32 := by decide +kernel
theorem test_ip : perm tableIP 0x0123456789ABCDEF#64 = 0xCC00CCFFF0AAF0AA#64 ∧
    perm tableIP 0x0000000000000040#64 = 0x8000000000000000#64 := by decide +kernel
theorem test_fp : perm tableFP 0x0A4CD99543423234#64 = 0x85E813540F0AB405#64 ∧
    perm tableFP 0x8000000000000000#64 = 0x0000000000000040#64 := by decide +kernel
theorem test_rotl28 : rotl28 0xC332ABF#28 2 = 0x0CCAAFF#28 ∧ rotl28 0x4000001#28 2 = 0x0000005#28 := by decide +kernel
theorem test_sub : sub standardTables 0x6117BA866527#48 = 0x5C82B597#32 ∧
    sub standardTables 0x400000000000#48 = 0x3FA72C4D#32 ∧
    sub standardTables 0x000000FC0000#48 = 0xEFA73C4D#32 := by decide +kernel
/-- R4, the example of 20_memory section 2. -/
theorem test_bytes : blockOfBytes #v[0x01#8, 0x23#8, 0x45#8, 0x67#8, 0x89#8, 0xAB#8, 0xCD#8, 0xEF#8] =
    0x0123456789ABCDEF#64 ∧ bitMsb 0x0123456789ABCDEF#64 8 = true := by decide +kernel

/-! ## The commands -/

/-- 95_test_vectors section 3.5 row 12. -/
theorem test_nop : nextOf (exec .nop { loaded with rdata := 5#64, status := 3#4 }) =
    some { loaded with rdata := 0#64, status := 0#4 } := by decide +kernel

/-- 41_key_schedule section 4: all sixteen subkeys. -/
theorem test_ksgen_encrypt :
    (nextOf (exec (.ksgen .encrypt 16) { blank .absent with wdata := 0x133457799BBCDFF1#64 })).map
      (fun t => (t.sk, t.slen, t.sdir)) = some (slotsOf printedKeys, 16#5, .encrypt) := by decide +kernel
/-- 95_test_vectors section 3.2: `KSGEN DEC, 5` of `0x0123456789ABCDEF` over a longer schedule. -/
theorem test_ksgen_decrypt :
    (nextOf (exec (.ksgen .decrypt 5) { holding .absent printedKeys with wdata := 0x0123456789ABCDEF#64 })).map
      (fun t => (t.sk, t.slen, t.sdir)) =
    some (slotsOf [0x3CE80317A6C2#48, 0x7289D2A58257#48, 0x45D48AB428D2#48, 0x69A659256A26#48, 0x0B02679B49A5#48],
      5#5, .decrypt) := by decide +kernel

/-- V1 of 95_test_vectors section 2, both settings of `IPFP`. -/
theorem test_crypt_sixteen :
    outputs (exec (.crypt 16) { holding .present printedKeys with wdata := 0x0123456789ABCDEF#64 }) =
      some (0x85E813540F0AB405#64, 0#4) ∧
    outputs (exec (.crypt 16) { holding .absent printedKeys with wdata := 0x0123456789ABCDEF#64 }) =
      some (0x0C465F038E5907DC#64, 0#4) := by decide +kernel
/-- 95_test_vectors section 3.4, n = 1 and n = 3. -/
theorem test_crypt_reduced :
    outputs (exec (.crypt 1) { holding .absent (printedKeys.take 1) with wdata := 0x0123456789ABCDEF#64 }) =
      some (0xAFAAF76A89ABCDEF#64, 0#4) ∧
    outputs (exec (.crypt 3) { holding .present (printedKeys.take 3) with wdata := 0x0123456789ABCDEF#64 }) =
      some (0x2E4C9996194999C1#64, 0#4) := by decide +kernel

/-- 95_test_vectors section 3.3, command-level row 3: `wdata[63:48]` is ignored. -/
theorem test_ldfk : (nextOf (exec .ldfk { blank .absent with wdata := 0xFFFF1B02EFFC7072#64 })).map (·.fk) =
    some 0x1B02EFFC7072#48 := by decide +kernel

/-- 95_test_vectors section 3.3, command-level rows 5 and 2: `wdata[63:32]` is ignored. -/
theorem test_feval :
    outputs (exec .feval { blank .absent with fk := 0x1B02EFFC7072#48, wdata := 0xDEADBEEFF0AAF0AA#64 }) =
      some (0x00000000234AA9BB#64, 0#4) ∧
    outputs (exec .feval { blank .absent with wdata := 0xFFFFFFFF00000000#64 }) = some (0x00000000D8D8DBBC#64, 0#4) := by
  decide +kernel

/-- 44_access_and_control R161: `RDSK 15` of a 16-round schedule, and `RDSK 3` of a 3-round one. -/
theorem test_rdsk :
    outputs (exec (.rdsk 15) (holding .absent printedKeys)) = some (0x0000CB3D8B0E17F5#64, 0#4) ∧
    outputs (exec (.rdsk 3) (holding .absent (printedKeys.take 3))) = some (0#64, 4#4) := by decide +kernel

/-- 44_access_and_control R162: after `KSGEN DEC, 16`, both settings. -/
theorem test_rdst :
    outputs (exec .rdst { holding .absent printedKeys with sdir := .decrypt }) = some (0x0110#64, 0#4) ∧
    outputs (exec .rdst { holding .present printedKeys with sdir := .decrypt }) = some (0x1110#64, 0#4) := by
  decide +kernel

/-- 10_state section 6: after CLR every piece of architectural state is as after reset. -/
theorem test_clr : (nextOf (exec .clr loaded)).map State.arch = some State.reset.arch := by decide +kernel

/-- 95_test_vectors section 3.6: the status priority cases. -/
theorem test_priority :
    outputs (step (issue 0x2111#16 0#64 loaded)) = some (0#64, 1#4) ∧
    outputs (step (issue 0x2000#16 0#64 (blank .absent))) = some (0#64, 2#4) ∧
    outputs (step (issue 0x2011#16 0#64 (holding .absent (printedKeys.take 3)))) = some (0#64, 2#4) ∧
    outputs (step (issue 0x5120#16 0#64 (blank .absent))) = some (0#64, 1#4) := by decide +kernel

/-- The model's fault, in a state no run reaches: a slot below `SLEN` without a value (00_scope section 5.2). -/
theorem test_slot_without_value : nextOf (exec (.rdsk 0) { blank .absent with slen := 1#5 }) = none := by decide +kernel

/-! ## Witnesses: concrete states and operands that meet the hypotheses of the statements -/

theorem witness_DecodeOfEncode : (Instr.ksgen .decrypt 31).wellFormed = true := by decide

theorem witness_EncodeOfDecode : decode 0x111F#16 = .ok (.ksgen .decrypt 31) := by decide

theorem witness_WordNamesCommandByMask : ⟨"CLR", 0x7000#16, 0xFFFF#16⟩ ∈ opcodeTable ∧
    0x7000#16 &&& 0xFFFF#16 = 0x7000#16 := by decide

theorem witness_OperandsAreUnscaledFields :
    decode 0x1100#16 = .ok (.ksgen .decrypt 0) ∧ decode 0x201F#16 = .ok (.crypt 31) ∧
    decode 0x501F#16 = .ok (.rdsk 31) := by decide

/-- Each condition of R54 alone, at a boundary. -/
theorem witness_IllegalWordFails :
    (IllegalWord 0x0200#16 ∧ IllegalWord 0x1020#16 ∧ IllegalWord 0x8000#16) ∧
    (IllegalWord 0x2101#16 ∧ IllegalWord 0x0001#16) ∧ ¬ IllegalWord 0x111F#16 ∧ ¬ IllegalWord 0x7000#16 :=
  ⟨by decide, by decide, by decide, by decide⟩

theorem witness_PseudoCommandsExpand : encode (Pseudo.ksdec 31).expand = 0x111F#16 := by decide

theorem witness_StepRunsDecodedCommand :
    (issue 0x6000#16 0#64 loaded).pending = .command 0x6000#16 0#64 :: [] ∧ decode 0x6000#16 = .ok .rdst ∧
    (issue 0x8000#16 0#64 loaded).pending = .command 0x8000#16 0#64 :: [] ∧
    decode 0x8000#16 = .error .reservedOpcode := by decide

theorem witness_IdleStepHoldsState : loaded.pending = [] := rfl

theorem witness_ResetEventClearsState :
    ({ loaded with pending := [.reset, .command 0x6000#16 0#64] } : State).pending =
      .reset :: [.command 0x6000#16 0#64] := rfl

/-- A state with a schedule, a response received and commands pending meets the invariant. -/
def midRun : State :=
  { loaded with
    received := [⟨0#64, 2#4⟩]
    pending := [.command 0x2002#16 1#64, .reset, .command 0x2002#16 1#64] }

theorem witness_invariant : midRun.Inv := by
  constructor <;> decide +kernel

theorem witness_StepKeepsInvariant : midRun.Inv ∧ ∃ t, step midRun = .next t :=
  ⟨witness_invariant, next_of_isSome (by decide +kernel)⟩

theorem witness_EveryStepCompletes : midRun.Inv := witness_invariant

theorem witness_RunDeliversOneResponsePerCommand : midRun.Inv ∧ midRun.pending.length = 3 ∧
    (commandsIn midRun.pending).length = 2 := ⟨witness_invariant, by decide, by decide⟩

theorem witness_StepKeepsParameter : ∃ t, step midRun = .next t := next_of_isSome (by decide +kernel)

/-- One word for each clause of the priority. -/
theorem witness_StatusFollowsPriority :
    outputs (runWord 0x1031#16 loaded) = some (0#64, 1#4) ∧
    outputs (runWord 0x1011#16 loaded) = some (0#64, 2#4) ∧
    outputs (runWord 0x2001#16 loaded) = some (0#64, 3#4) ∧
    outputs (runWord 0x5002#16 loaded) = some (0#64, 4#4) ∧
    outputs (runWord 0x5001#16 loaded) = some (0x000079AED9DBC9E5#64, 0#4) := by decide +kernel

theorem witness_FailedCommandChangesNothing :
    outputs (runWord 0x2001#16 loaded) = some (0#64, 3#4) ∧ outputs (runWord 0xFFFF#16 loaded) = some (0#64, 1#4) := by
  decide +kernel

theorem witness_RoundsErrorExactly :
    outputs (exec (.ksgen .encrypt 0) loaded) = some (0#64, 2#4) ∧
    outputs (exec (.crypt 17) loaded) = some (0#64, 2#4) ∧
    outputs (exec (.ksgen .encrypt 1) loaded) = some (0#64, 0#4) := by decide +kernel

theorem witness_MismatchErrorExactly :
    outputs (exec (.crypt 1) loaded) = some (0#64, 3#4) ∧ outputs (exec (.crypt 16) loaded) = some (0#64, 3#4) := by
  decide +kernel

theorem witness_IndexErrorExactly :
    outputs (exec (.rdsk 2) loaded) = some (0#64, 4#4) ∧
    outputs (exec (.rdsk 1) loaded) = some (0x000079AED9DBC9E5#64, 0#4) := by decide +kernel

theorem witness_KsgenRejectsRoundCount : ¬ (1 ≤ 0 ∧ 0 ≤ 16) ∧ ¬ (1 ≤ 17 ∧ 17 ≤ 16) := by decide

theorem witness_CryptRejectsRoundCount :
    ¬ (1 ≤ 0 ∧ 0 ≤ 16) ∧ ((1 ≤ 16 ∧ 16 ≤ 16) ∧ 16 ≠ loaded.slen.toNat) ∧
    ((1 ≤ 1 ∧ 1 ≤ 16) ∧ 1 ≠ loaded.slen.toNat) := by decide

theorem witness_NoScheduleFailsCryptAndRdsk : (blank .present).slen = 0#5 ∧
    Instr.clr ∈ [Instr.nop, .rdst, .ldfk, .feval, .clr] := by decide

theorem witness_KsgenReplacesSchedule : (1 ≤ 1 ∧ 1 ≤ 16) ∧ (1 ≤ 16 ∧ 16 ≤ 16) := by decide

theorem witness_CryptTransformsBlock :
    (1 ≤ 2 ∧ 2 ≤ 16) ∧ loaded.slen.toNat = 2 ∧ (∀ j : Fin 16, j.val < 2 → loaded.sk[j].isSome) ∧
    (holding .absent printedKeys).slen.toNat = 16 ∧
    (∀ j : Fin 16, j.val < 16 → (holding .absent printedKeys).sk[j].isSome) := by decide +kernel

/-- The last valid index, and the first that is not. -/
theorem witness_RdskReadsSlot :
    1 < loaded.slen.toNat ∧ loaded.sk[1] = some 0x79AED9DBC9E5#48 ∧ loaded.slen.toNat ≤ 2 := by decide +kernel

theorem witness_StatusWordMirrorsKsgen : ∃ t u, exec (.ksgen .decrypt 16) loaded = .next t ∧ exec .rdst t = .next u :=
  ⟨_, _, rfl, rfl⟩

theorem witness_StateChangesConfined :
    (∃ t, exec (.crypt 2) loaded = .next t) ∧ (∃ t, exec (.rdsk 1) loaded = .next t) ∧
    (∃ t, exec (.ksgen .encrypt 17) loaded = .next t) ∧ ∃ t, exec .clr loaded = .next t :=
  ⟨next_of_isSome (by decide +kernel), next_of_isSome (by decide +kernel), next_of_isSome (by decide +kernel),
   next_of_isSome (by decide +kernel)⟩

/-- Two different states with the same architectural state, `wdata` and parameter. -/
theorem witness_CommandDependsOnArchOnly :
    loaded.arch = midRun.arch ∧ loaded.wdata = midRun.wdata ∧ loaded.ipfp = midRun.ipfp ∧ loaded ≠ midRun ∧
    ∃ t, exec (.crypt 2) loaded = .next t :=
  ⟨rfl, rfl, rfl, by decide +kernel, next_of_isSome (by decide +kernel)⟩

theorem witness_ReadCommandsRepeat :
    (∃ t, exec (.crypt 2) loaded = .next t) ∧ (∃ t, exec (.rdsk 1) loaded = .next t) ∧
    (∃ t, exec .nop loaded = .next t) ∧ (∃ t, exec .feval loaded = .next t) ∧ ∃ t, exec .rdst loaded = .next t :=
  ⟨next_of_isSome (by decide +kernel), next_of_isSome (by decide +kernel), ⟨_, rfl⟩, ⟨_, rfl⟩, ⟨_, rfl⟩⟩

theorem witness_IgnoredDataBits :
    (0xFFFF456789ABCDEF#64).extractLsb' 0 48 = loaded.wdata.extractLsb' 0 48 ∧
    (0xFFFFFFFF89ABCDEF#64).extractLsb' 0 32 = loaded.wdata.extractLsb' 0 32 ∧
    (∃ t, exec .ldfk loaded = .next t) ∧ (∃ t, exec .feval loaded = .next t) ∧
    ∃ t, exec (.rdsk 1) loaded = .next t :=
  ⟨by decide, by decide, ⟨_, rfl⟩, ⟨_, rfl⟩, next_of_isSome (by decide +kernel)⟩

theorem witness_DirectionIsNeverConsulted :
    Instr.crypt 2 ≠ .rdst ∧ ∃ t, exec (.crypt 2) loaded = .next t :=
  ⟨by decide, next_of_isSome (by decide +kernel)⟩

theorem witness_SubkeyRegisterAndScheduleUnrelated :
    (∃ t, exec .feval loaded = .next t) ∧ (∃ t, exec (.crypt 2) loaded = .next t) ∧
    (∃ t, exec (.ksgen .encrypt 16) loaded = .next t) ∧ ∃ t, exec .ldfk loaded = .next t :=
  ⟨⟨_, rfl⟩, next_of_isSome (by decide +kernel), next_of_isSome (by decide +kernel), ⟨_, rfl⟩⟩

theorem witness_PermSelectsTableBits : 0 < 56 ∧ 55 < 56 := by decide

theorem witness_RotationLosesNoBit :
    (∀ a ∈ tableShift.toList, a = 1 ∨ a = 2) ∧ tableShift.toList.sum = 28 ∧ (1 ≤ 1 ∧ 1 ≤ 28) ∧ (1 ≤ 28 ∧ 28 ≤ 28) := by
  decide +kernel

theorem witness_ByteArrayBitOrder : (1 ≤ 1 ∧ 1 ≤ 64) ∧ (1 ≤ 64 ∧ 64 ≤ 64) := by decide

theorem witness_KeySelectionBits : 0 < 28 ∧ 27 < 28 := by decide

theorem witness_GeneratedSubkeysFollowRecurrence : 0 ≤ 16 ∧ 16 ≤ 16 := by decide

theorem witness_EncryptScheduleIsPrefix : 1 ≤ 3 ∧ 3 ≤ 16 ∧ 16 ≤ 16 ∧ 2 < 3 := by decide

/-- The two keys of 95_test_vectors section 3.2 that differ in every parity bit. -/
theorem witness_ParityBitsHaveNoEffect :
    0x133457799BBCDFF1#64 ≠ 0x123556789ABDDEF0#64 ∧
    ∀ b, 1 ≤ b ∧ b ≤ 64 → b % 8 ≠ 0 → bitMsb 0x133457799BBCDFF1#64 b = bitMsb 0x123556789ABDDEF0#64 b := by
  refine ⟨by decide, fun b hb h8 => ?_⟩
  have all : ∀ b : Fin 65, 1 ≤ b.val → b.val % 8 ≠ 0 →
      bitMsb 0x133457799BBCDFF1#64 b.val = bitMsb 0x123556789ABDDEF0#64 b.val := by decide +kernel
  exact all ⟨b, by omega⟩ hb.1 h8

/-- The keys of the corner cases of R100, from 95_test_vectors section 3.2. -/
theorem witness_ConstantKeysAndFullRotation :
    perm tablePC1 0x0101010101010101#64 = 0#56 ∧ perm tablePC1 0xFEFEFEFEFEFEFEFE#64 = BitVec.allOnes 56 ∧ 16 ≤ 16 := by
  decide +kernel

/-- Output bit 1 of `F` reads table `S4`: operands that differ elsewhere. -/
theorem witness_RoundFunctionBitDependency :
    (tableP[0] - 1) / 4 = 3 ∧
    ∀ q, 6 * 3 + 1 ≤ q ∧ q ≤ 6 * 3 + 6 →
      bitMsb 0x000000000000#48 q = bitMsb 0x800000000001#48 q ∧
      bitMsb 0x00000000#32 (tableE.toList.getD (q - 1) 0) = bitMsb 0x80000001#32 (tableE.toList.getD (q - 1) 0) := by
  refine ⟨by decide, fun q hq => ?_⟩
  have all : ∀ q : Fin 25, 19 ≤ q.val → bitMsb 0x000000000000#48 q.val = bitMsb 0x800000000001#48 q.val ∧
      bitMsb 0x00000000#32 (tableE.toList.getD (q.val - 1) 0) =
        bitMsb 0x80000001#32 (tableE.toList.getD (q.val - 1) 0) := by decide +kernel
  exact all ⟨q, by omega⟩ (show 19 ≤ q by omega)

theorem witness_ReversedScheduleInverts :
    InverseTables standardTables.ip standardTables.fp ∧ EntriesWithin 64 standardTables.ip ∧
    EntriesWithin 64 standardTables.fp ∧ (1 ≤ (printedKeys.take 1).length ∧ (printedKeys.take 1).length ≤ 16) ∧
    (1 ≤ printedKeys.length ∧ printedKeys.length ≤ 16) := by decide +kernel

theorem witness_RunRoundTripReturnsBlock :
    (1 ≤ 1 ∧ 1 ≤ 16) ∧ (1 ≤ 16 ∧ 16 ≤ 16) ∧ Direction.encrypt ≠ .decrypt := by decide

end Sys2Proof.Tests
end

/-! ## Proofs: what a command and a step can do -/

namespace Sys2Proof.Machine

open Sys2Proof

/-! ### Commands -/

/-- What a command that succeeds writes to the architectural state (R22): KSGEN the schedule, LDFK `FK`, CLR all of it,
every other command nothing. -/
def commit : Instr → State → State
  | .ksgen dir n, s => storeSchedule (schedule standardTables dir n (rawKey s)) n dir s
  | .ldfk, s => writeFK (subkeyOperand s) s
  | .clr, s => clearState s
  | .nop, s => s
  | .crypt _, s => s
  | .feval, s => s
  | .rdsk _, s => s
  | .rdst, s => s

/-- The commands that write no architectural state. -/
def IsRead (i : Instr) : Prop := i = .nop ∨ i = .feval ∨ i = .rdst ∨ (∃ n, i = .crypt n) ∨ ∃ n, i = .rdsk n

theorem commit_of_isRead {i : Instr} (hi : IsRead i) (s : State) : commit i s = s := by
  rcases hi with rfl | rfl | rfl | ⟨n, rfl⟩ | ⟨n, rfl⟩ <;> rfl

@[simp] theorem commit_surroundings (i : Instr) (s : State) : (commit i s).surroundings = s.surroundings := by
  cases i <;> simp [commit]

/-- A command that answers either succeeds, with what it writes, or fails with `rdata = 0` and no write (R180, R187). -/
theorem exec_eq_next {i : Instr} {s t : State} (h : exec i s = .next t) :
    (∃ d, t = driveOutputs d .ok (commit i s) ∧ ∀ dir n, i = .ksgen dir n → 1 ≤ n ∧ n ≤ 16) ∨
    (∃ c, c ≠ .ok ∧ t = driveOutputs 0#64 c s) := by
  cases i with
  | nop => exact .inl ⟨_, complete_eq_next h, nofun⟩
  | ksgen dir n =>
    rcases execKsgen_eq_next h with ⟨h1, h2, ht⟩ | ⟨-, ht⟩
    · refine .inl ⟨_, ht, fun _ _ he => ?_⟩
      cases he
      exact ⟨h1, h2⟩
    · exact .inr ⟨.eRounds, nofun, ht⟩
  | crypt n =>
    rcases execCrypt_eq_next h with ⟨-, -, -, ks, -, ht⟩ | ⟨-, -, -, ht⟩ | ⟨-, ht⟩
    · exact .inl ⟨_, ht, nofun⟩
    · exact .inr ⟨.eMismatch, nofun, ht⟩
    · exact .inr ⟨.eRounds, nofun, ht⟩
  | ldfk => exact .inl ⟨_, complete_eq_next h, nofun⟩
  | feval => exact .inl ⟨_, complete_eq_next h, nofun⟩
  | rdsk n =>
    rcases execRdsk_eq_next h with ⟨-, k, -, ht⟩ | ⟨-, ht⟩
    · exact .inl ⟨_, ht, nofun⟩
    · exact .inr ⟨.eIndex, nofun, ht⟩
  | rdst => exact .inl ⟨_, complete_eq_next h, nofun⟩
  | clr => exact .inl ⟨_, complete_eq_next h, nofun⟩

/-- No command writes the parameter, the input ports or what the host holds. -/
theorem exec_surroundings {i : Instr} {s t : State} (h : exec i s = .next t) : t.surroundings = s.surroundings := by
  rcases exec_eq_next h with ⟨d, rfl, -⟩ | ⟨c, -, rfl⟩ <;> simp

theorem exec_arch_of_isRead {i : Instr} (hi : IsRead i) {s t : State} (h : exec i s = .next t) : t.arch = s.arch := by
  rcases exec_eq_next h with ⟨d, rfl, -⟩ | ⟨c, -, rfl⟩
  · simp [commit_of_isRead hi]
  · simp

/-! ### Words -/

theorem runWord_of_ok {w : CmdWord} {i : Instr} (h : decode w = .ok i) (s : State) : runWord w s = exec i s := by
  simp [runWord, h]

theorem runWord_of_error {w : CmdWord} {e : Illegal} (h : decode w = .error e) (s : State) :
    runWord w s = .next (driveOutputs 0#64 .eIllegal s) := by
  simp [runWord, h, execIllegal, fail]

/-- Settles O8: the equation of a step at a command, then the equation of its word. -/
theorem stepRunsDecodedCommand : Obligations.StepRunsDecodedCommand := by
  intro s w d rest hp
  rw [step_of_command hp]
  refine ⟨fun i hi => ?_, fun e he => ?_⟩
  · rw [runWord_of_ok hi]
    rfl
  · rw [runWord_of_error he]
    rfl

end Sys2Proof.Machine

/-! ## Proofs: the invariant -/

namespace Sys2Proof.Machine

open Sys2Proof

/-! ### Which operations keep the invariant -/

namespace State.Inv

variable {s : State}

/-- Output ports that hold a status code, and 0 unless the code is `OK`, keep the invariant. -/
theorem driveOutputs (hs : s.Inv) (d : Data) (c : Status) (hd : c ≠ .ok → d = 0#64) :
    (Machine.driveOutputs d c s).Inv where
  length_le := hs.length_le
  slots := hs.slots
  direction := hs.direction
  ports := ⟨code_le c, fun hc => hd fun h => hc ((code_eq_zero_iff c).mpr h)⟩
  responses := hs.responses

/-- A schedule of 1 to 16 subkeys, stored with its length, keeps the invariant. -/
theorem storeSchedule (hs : s.Inv) {ks : List Subkey} {n : Nat} (h1 : 1 ≤ n) (h2 : n ≤ 16) (hks : ks.length = n)
    (dir : Direction) : (Machine.storeSchedule ks n dir s).Inv := by
  have hn : (BitVec.ofNat 5 n).toNat = n := BitVec.toNat_ofNat n 5 ▸ Nat.mod_eq_of_lt (by omega)
  constructor
  case length_le => simpa only [storeSchedule_slen, hn] using h2
  case slots =>
    intro j
    simp only [storeSchedule_sk, storeSchedule_slen, hn, Fin.getElem_fin, slotsOf_getElem]
    rw [Bool.eq_iff_iff, isSome_getElem?, decide_eq_true_iff, hks]
  case direction =>
    intro h0
    have := congrArg BitVec.toNat h0
    simp only [storeSchedule_slen, hn, BitVec.toNat_ofNat] at this
    omega
  case ports => simpa only [storeSchedule_rdata, storeSchedule_status] using hs.ports
  case responses => simpa only [storeSchedule_received] using hs.responses

theorem writeFK (hs : s.Inv) (k : Subkey) : (Machine.writeFK k s).Inv :=
  ⟨hs.length_le, hs.slots, hs.direction, hs.ports, hs.responses⟩

theorem clearState (hs : s.Inv) : (Machine.clearState s).Inv where
  length_le := by simp
  slots := fun j => by simp [Fin.getElem_fin]
  direction := fun _ => rfl
  ports := hs.ports
  responses := hs.responses

theorem takeEvent (hs : s.Inv) (es : List HostEvent) : (Machine.takeEvent es s).Inv :=
  ⟨hs.length_le, hs.slots, hs.direction, hs.ports, hs.responses⟩

theorem sampleInputs (hs : s.Inv) (w : CmdWord) (d : Data) : (Machine.sampleInputs w d s).Inv :=
  ⟨hs.length_le, hs.slots, hs.direction, hs.ports, hs.responses⟩

/-- The response collected is what the clean ports hold. -/
theorem collectOutputs (hs : s.Inv) : (Machine.collectOutputs s).Inv where
  length_le := hs.length_le
  slots := hs.slots
  direction := hs.direction
  ports := hs.ports
  responses := by
    intro r hr
    rcases List.mem_append.mp hr with hold | hnew
    · exact hs.responses r hold
    · rw [List.mem_singleton.mp hnew]
      exact hs.ports

theorem commit (hs : s.Inv) {i : Instr} (hi : ∀ dir n, i = .ksgen dir n → 1 ≤ n ∧ n ≤ 16) :
    (Machine.commit i s).Inv := by
  cases i with
  | ksgen dir n =>
    obtain ⟨h1, h2⟩ := hi dir n rfl
    exact hs.storeSchedule h1 h2 (length_schedule _ _ _ h2) dir
  | ldfk => exact hs.writeFK _
  | clr => exact hs.clearState
  | nop => exact hs
  | crypt n => exact hs
  | feval => exact hs
  | rdsk n => exact hs
  | rdst => exact hs

end State.Inv

theorem exec_keeps_inv {i : Instr} {s t : State} (hs : s.Inv) (h : exec i s = .next t) : t.Inv := by
  rcases exec_eq_next h with ⟨d, rfl, hi⟩ | ⟨c, -, rfl⟩
  · exact (hs.commit hi).driveOutputs d .ok (absurd rfl)
  · exact hs.driveOutputs 0#64 c fun _ => rfl

theorem runWord_keeps_inv {w : CmdWord} {s t : State} (hs : s.Inv) (h : runWord w s = .next t) : t.Inv := by
  rcases runWord_eq_next h with ⟨i, -, hi⟩ | ⟨e, -, rfl⟩
  · exact exec_keeps_inv hs hi
  · exact hs.driveOutputs 0#64 .eIllegal fun _ => rfl

/-- The invariant is inductive: reset, idle and command steps keep it. -/
theorem step_keeps_inv {s t : State} (hs : s.Inv) (h : step s = .next t) : t.Inv := by
  rcases step_eq_next h with ⟨-, rfl⟩ | ⟨rest, -, rfl⟩ | ⟨w, d, rest, u, -, hu, rfl⟩
  · exact hs
  · exact (hs.takeEvent rest).clearState
  · exact (runWord_keeps_inv ((hs.takeEvent rest).sampleInputs w d) hu).collectOutputs

/-! ### Every command completes -/

/-- Under the invariant CRYPT finds a subkey in every slot below `SLEN`. -/
theorem execCrypt_completes {s : State} (hs : s.Inv) (n : Nat) : ∃ t, execCrypt n s = .next t := by
  unfold execCrypt
  split
  · split
    · rename_i hn
      have held : ∀ j : Fin 16, j.val < n → s.sk[j].isSome := fun j hj => by
        rw [hs.slots j, decide_eq_true_iff, ← hn]
        exact hj
      obtain ⟨ks, hks⟩ := exists_readSchedule held
      rw [hks]
      exact ⟨_, rfl⟩
    · exact ⟨_, rfl⟩
  · exact ⟨_, rfl⟩

/-- Under the invariant RDSK finds a subkey at every index below `SLEN`. -/
theorem execRdsk_completes {s : State} (hs : s.Inv) (i : Nat) : ∃ t, execRdsk i s = .next t := by
  unfold execRdsk
  split
  · rename_i hi
    have hi16 : i < 16 := Nat.lt_of_lt_of_le hi hs.length_le
    have held : s.sk[i].isSome := (hs.slots ⟨i, hi16⟩).trans (decide_eq_true hi)
    obtain ⟨k, hk⟩ := Option.isSome_iff_exists.mp held
    rw [readSlot_of_lt hi16, hk]
    exact ⟨_, rfl⟩
  · exact ⟨_, rfl⟩

theorem execKsgen_completes (s : State) (dir : Direction) (n : Nat) : ∃ t, execKsgen dir n s = .next t := by
  unfold execKsgen
  split <;> exact ⟨_, rfl⟩

/-- R180: from a state that meets the invariant no command traps. -/
theorem exec_completes {s : State} (hs : s.Inv) (i : Instr) : ∃ t, exec i s = .next t := by
  cases i with
  | nop => exact ⟨_, rfl⟩
  | ksgen dir n => exact execKsgen_completes s dir n
  | crypt n => exact execCrypt_completes hs n
  | ldfk => exact ⟨_, rfl⟩
  | feval => exact ⟨_, rfl⟩
  | rdsk n => exact execRdsk_completes hs n
  | rdst => exact ⟨_, rfl⟩
  | clr => exact ⟨_, rfl⟩

theorem runWord_completes {s : State} (hs : s.Inv) (w : CmdWord) : ∃ t, runWord w s = .next t := by
  match hw : decode w with
  | .ok i =>
    rw [runWord_of_ok hw]
    exact exec_completes hs i
  | .error e => exact ⟨_, runWord_of_error hw s⟩

theorem step_completes {s : State} (hs : s.Inv) : ∃ t, step s = .next t := by
  match hp : s.pending with
  | [] => exact ⟨_, step_of_nil hp⟩
  | .reset :: rest => exact ⟨_, step_of_reset hp⟩
  | .command w d :: rest =>
    obtain ⟨u, hu⟩ := runWord_completes ((hs.takeEvent rest).sampleInputs w d) w
    rw [step_of_command hp, hu]
    exact ⟨_, rfl⟩

/-- Settles O14: a step completes because the slots match `SLEN`, and every step keeps the invariant. -/
theorem everyStepCompletes : Obligations.EveryStepCompletes := by
  intro s hs
  obtain ⟨t, ht⟩ := step_completes hs
  exact ⟨t, ht, step_keeps_inv hs ht⟩

end Sys2Proof.Machine

/-! ## Proofs: what a command depends on -/

namespace Sys2Proof.Machine

open Sys2Proof

/-- When the first outcome is a next state, so is the second, with the same architectural state and outputs. -/
def SameResult (o o' : Host.Outcome State Fault Refusal) : Prop :=
  ∀ t, o = .next t → ∃ t', o' = .next t' ∧ t'.arch = t.arch ∧ t'.rdata = t.rdata ∧ t'.status = t.status

/-- Everything a command reads: the architectural state, `wdata` and the parameter (R6). -/
structure SameInputs (s s' : State) : Prop where
  arch : s.arch = s'.arch
  wdata : s.wdata = s'.wdata
  ipfp : s.ipfp = s'.ipfp

theorem sameResult_complete {s s' : State} (h : s.arch = s'.arch) (d : Data) :
    SameResult (complete d s) (complete d s') := by
  intro t ht
  obtain rfl := complete_eq_next ht
  exact ⟨_, rfl, h.symm, rfl, rfl⟩

theorem sameResult_fail {s s' : State} (h : s.arch = s'.arch) (c : Status) :
    SameResult (fail c s) (fail c s') := by
  intro t ht
  obtain rfl := fail_eq_next ht
  exact ⟨_, rfl, h.symm, rfl, rfl⟩

theorem sameResult_fault (f : Fault) (o : Host.Outcome State Fault Refusal) : SameResult (.fault f) o := nofun

namespace SameInputs

variable {s s' : State} (h : SameInputs s s')

include h

theorem sk : s.sk = s'.sk := congrArg Arch.sk h.arch

theorem slen : s.slen = s'.slen := congrArg Arch.slen h.arch

theorem sdir : s.sdir = s'.sdir := congrArg Arch.sdir h.arch

theorem fk : s.fk = s'.fk := congrArg Arch.fk h.arch

theorem statusWord : statusWord s = statusWord s' := by
  simp only [Machine.statusWord, h.slen, h.sdir, h.ipfp]

theorem execKsgen (dir : Direction) (n : Nat) : SameResult (execKsgen dir n s) (execKsgen dir n s') := by
  have stored (ks : List Subkey) : (storeSchedule ks n dir s).arch = (storeSchedule ks n dir s').arch := by
    simp [State.arch, h.fk]
  simp only [Machine.execKsgen, rawKey, h.wdata]
  split
  · exact sameResult_complete (stored _) _
  · exact sameResult_fail h.arch _

theorem execCrypt (n : Nat) : SameResult (execCrypt n s) (execCrypt n s') := by
  have hread : readSchedule s n = readSchedule s' n := by simp only [readSchedule, h.sk]
  simp only [Machine.execCrypt, inputBlock, hread, h.slen, h.ipfp, h.wdata]
  split
  · split
    · split
      · exact sameResult_complete h.arch _
      · exact sameResult_fault _ _
    · exact sameResult_fail h.arch _
  · exact sameResult_fail h.arch _

theorem execRdsk (i : Nat) : SameResult (execRdsk i s) (execRdsk i s') := by
  have hread : readSlot s i = readSlot s' i := by simp only [readSlot, h.sk]
  simp only [Machine.execRdsk, hread, h.slen]
  split
  · split
    · exact sameResult_complete h.arch _
    · exact sameResult_fault _ _
  · exact sameResult_fail h.arch _

theorem execLdfk : SameResult (execLdfk s) (execLdfk s') := by
  simp only [Machine.execLdfk, subkeyOperand, h.wdata]
  refine sameResult_complete ?_ _
  simp [State.arch, h.sk, h.slen, h.sdir]

theorem execFeval : SameResult (execFeval s) (execFeval s') := by
  simp only [Machine.execFeval, halfOperand, h.wdata, h.fk]
  exact sameResult_complete h.arch _

theorem execRdst : SameResult (execRdst s) (execRdst s') := by
  simp only [Machine.execRdst, h.statusWord]
  exact sameResult_complete h.arch _

theorem exec (i : Instr) : SameResult (exec i s) (exec i s') := by
  cases i with
  | nop => exact sameResult_complete h.arch _
  | ksgen dir n => exact h.execKsgen dir n
  | crypt n => exact h.execCrypt n
  | ldfk => exact h.execLdfk
  | feval => exact h.execFeval
  | rdsk n => exact h.execRdsk n
  | rdst => exact h.execRdst
  | clr => exact sameResult_complete (s := clearState s) (s' := clearState s') rfl _

end SameInputs

/-- Settles O35: states that agree on what a command reads have the same result, command by command. -/
theorem commandDependsOnArchOnly : Obligations.CommandDependsOnArchOnly :=
  fun i _ _ t harch hwdata hipfp h => SameInputs.exec ⟨harch, hwdata, hipfp⟩ i t h

/-- A state is its architectural state, its surroundings and its output ports. -/
theorem state_ext {s t : State} (harch : s.arch = t.arch) (hsur : s.surroundings = t.surroundings)
    (hrdata : s.rdata = t.rdata) (hstatus : s.status = t.status) : s = t := by
  cases s
  cases t
  simp_all [State.arch, State.surroundings]

/-- Settles O36: a command that writes nothing leaves the inputs of its repetition as they were, so the repetition has
the same result, and neither touches the surroundings. -/
theorem readCommandsRepeat : Obligations.ReadCommandsRepeat := by
  intro i s t hi h
  have hsur := exec_surroundings h
  have inputs : SameInputs s t :=
    ⟨(exec_arch_of_isRead hi h).symm, (congrArg Surroundings.wdata hsur).symm, (congrArg Surroundings.ipfp hsur).symm⟩
  obtain ⟨t', ht', harch, hrdata, hstatus⟩ := inputs.exec i t h
  rw [ht', state_ext harch (exec_surroundings ht') hrdata hstatus]

end Sys2Proof.Machine

/-! ## Proofs: bytes on a port -/

namespace Sys2Proof.Machine

open Sys2Proof

/-- Byte `k` of the array stands `7 - k` bytes above the least significant end of the port value (R4, R32). -/
theorem getLsbD_blockOfBytes (b : Vector (BitVec 8) 8) (k : Nat) (hk : k < 8) (r : Nat) (hr : r < 8) :
    (blockOfBytes b).getLsbD (8 * (7 - k) + r) = b[k].getLsbD r := by
  simp only [blockOfBytes, BitVec.getLsbD_append]
  interval_cases k <;> grind

/-- Settles O45: bit `n` lies `7 - (n-1) mod 8` above the low end of byte `(n-1) div 8`. -/
theorem byteArrayBitOrder : Obligations.ByteArrayBitOrder := by
  intro b n h1 h64
  have position : 64 - n = 8 * (7 - (n - 1) / 8) + (7 - (n - 1) % 8) := by omega
  rw [bitMsb, position]
  exact getLsbD_blockOfBytes b _ (by omega) _ (by omega)

end Sys2Proof.Machine

/-! ## Proofs: the architectural state -/

namespace Sys2Proof.Machine

open Sys2Proof

/-! ### Reset -/

/-- Settles O11: the fields of the reset state, slot by slot. -/
theorem resetStateValues : Obligations.ResetStateValues :=
  ⟨rfl, rfl, rfl, fun j => Vector.getElem_replicate j.isLt⟩

/-- Settles O12: no slot holds a value, `SLEN` is 0, the ports hold `OK` (log 2), nothing is received (log 3). -/
theorem resetMeetsInvariant : Obligations.ResetMeetsInvariant := by
  obtain ⟨hslen, -, -, hsk⟩ := resetStateValues
  constructor
  case length_le => simp [hslen]
  case slots =>
    intro j
    simp [hsk j, hslen]
  case direction => exact fun _ => rfl
  case ports => exact ⟨by decide, fun _ => rfl⟩
  case responses => exact List.forall_mem_nil _

/-- Settles O13: every operation of a step keeps the invariant. Idle and reset steps keep the ports as they were (log 9),
and only a command step appends a response (log 3). -/
theorem stepKeepsInvariant : Obligations.StepKeepsInvariant := fun _ _ => step_keeps_inv

/-! ### What a command leaves unchanged -/

/-- A command that ends with a status other than `OK` has written nothing (R187). -/
theorem exec_arch_of_status_ne_zero {i : Instr} {s t : State} (h : exec i s = .next t) (ht : t.status ≠ 0#4) :
    t.arch = s.arch := by
  rcases exec_eq_next h with ⟨d, rfl, -⟩ | ⟨c, -, rfl⟩
  · exact absurd rfl ht
  · exact driveOutputs_arch s _ c

theorem execKsgen_fk {dir : Direction} {n : Nat} {s t : State} (h : execKsgen dir n s = .next t) : t.fk = s.fk := by
  rcases execKsgen_eq_next h with ⟨-, -, rfl⟩ | ⟨-, rfl⟩ <;> simp

theorem execLdfk_schedule {s t : State} (h : execLdfk s = .next t) :
    t.sk = s.sk ∧ t.slen = s.slen ∧ t.sdir = s.sdir := by
  obtain rfl := complete_eq_next h
  exact ⟨rfl, rfl, rfl⟩

/-- Settles O34: the frame of each command, the five that write nothing by the lemma they share. -/
theorem stateChangesConfined : Obligations.StateChangesConfined := by
  intro i s t h
  refine ⟨exec_surroundings h, exec_arch_of_status_ne_zero h, ?_⟩
  cases i with
  | nop => exact exec_arch_of_isRead (.inl rfl) h
  | feval => exact exec_arch_of_isRead (.inr (.inl rfl)) h
  | rdst => exact exec_arch_of_isRead (.inr (.inr (.inl rfl))) h
  | crypt n => exact exec_arch_of_isRead (.inr (.inr (.inr (.inl ⟨n, rfl⟩)))) h
  | rdsk n => exact exec_arch_of_isRead (.inr (.inr (.inr (.inr ⟨n, rfl⟩)))) h
  | ldfk => exact execLdfk_schedule h
  | ksgen dir n => exact execKsgen_fk h
  | clr => trivial

/-! ### The outcome of each command that checks something -/

section

variable {s : State} {n : Nat}

theorem execKsgen_of_legal (h1 : 1 ≤ n) (h2 : n ≤ 16) (dir : Direction) (s : State) :
    execKsgen dir n s =
      .next (driveOutputs 0#64 .ok (storeSchedule (schedule standardTables dir n (rawKey s)) n dir s)) :=
  if_pos ((legalRoundCount_iff n).mpr ⟨h1, h2⟩)

theorem execKsgen_of_illegal (hn : ¬ (1 ≤ n ∧ n ≤ 16)) (dir : Direction) (s : State) :
    execKsgen dir n s = .next (driveOutputs 0#64 .eRounds s) :=
  if_neg (mt (legalRoundCount_iff n).mp hn)

theorem execCrypt_of_held (h1 : 1 ≤ n) (h2 : n ≤ 16) (hlen : n = s.slen.toNat) {ks : List Subkey}
    (hks : readSchedule s n = some ks) :
    execCrypt n s = .next (driveOutputs (transform standardTables s.ipfp ks (inputBlock s)) .ok s) := by
  rw [execCrypt, if_pos ((legalRoundCount_iff n).mpr ⟨h1, h2⟩), if_pos hlen, hks]
  rfl

theorem execCrypt_of_mismatch (h1 : 1 ≤ n) (h2 : n ≤ 16) (hlen : n ≠ s.slen.toNat) :
    execCrypt n s = .next (driveOutputs 0#64 .eMismatch s) := by
  rw [execCrypt, if_pos ((legalRoundCount_iff n).mpr ⟨h1, h2⟩), if_neg hlen, fail]

theorem execCrypt_of_illegal (hn : ¬ (1 ≤ n ∧ n ≤ 16)) (s : State) :
    execCrypt n s = .next (driveOutputs 0#64 .eRounds s) :=
  if_neg (mt (legalRoundCount_iff n).mp hn)

theorem execRdsk_of_held (hi : n < s.slen.toNat) {k : Subkey} (hk : readSlot s n = some k) :
    execRdsk n s = .next (driveOutputs (zext64 k) .ok s) := by
  rw [execRdsk, if_pos hi, hk]
  rfl

theorem execRdsk_of_slen_le (hi : s.slen.toNat ≤ n) : execRdsk n s = .next (driveOutputs 0#64 .eIndex s) :=
  if_neg (Nat.not_lt.mpr hi)

end

/-! ### The direction of the schedule -/

/-- With another `SDIR` a command other than RDST ends in the same state but for `SDIR`: KSGEN and CLR write it without
reading it, and every other command leaves it as it was. -/
theorem exec_with_sdir {i : Instr} (hi : i ≠ .rdst) {s t : State} (h : exec i s = .next t) (d : Direction) :
    ∃ d', exec i { s with sdir := d } = .next { t with sdir := d' } := by
  cases i with
  | nop =>
    obtain rfl := complete_eq_next h
    exact ⟨d, rfl⟩
  | ksgen dir n =>
    rcases execKsgen_eq_next h with ⟨h1, h2, rfl⟩ | ⟨hn, rfl⟩
    · exact ⟨dir, execKsgen_of_legal h1 h2 dir _⟩
    · exact ⟨d, execKsgen_of_illegal hn dir _⟩
  | crypt n =>
    rcases execCrypt_eq_next h with ⟨h1, h2, hlen, ks, hks, rfl⟩ | ⟨h1, h2, hlen, rfl⟩ | ⟨hn, rfl⟩
    · exact ⟨d, execCrypt_of_held (s := { s with sdir := d }) h1 h2 hlen hks⟩
    · exact ⟨d, execCrypt_of_mismatch (s := { s with sdir := d }) h1 h2 hlen⟩
    · exact ⟨d, execCrypt_of_illegal hn _⟩
  | ldfk =>
    obtain rfl := complete_eq_next h
    exact ⟨d, rfl⟩
  | feval =>
    obtain rfl := complete_eq_next h
    exact ⟨d, rfl⟩
  | rdsk n =>
    rcases execRdsk_eq_next h with ⟨hn, k, hk, rfl⟩ | ⟨hn, rfl⟩
    · exact ⟨d, execRdsk_of_held (s := { s with sdir := d }) hn hk⟩
    · exact ⟨d, execRdsk_of_slen_le (s := { s with sdir := d }) hn⟩
  | rdst => exact absurd rfl hi
  | clr =>
    obtain rfl := complete_eq_next h
    exact ⟨.encrypt, rfl⟩

/-- Settles O38: only `SDIR` differs in the state a command ends in, and rdata, status and the other registers do not. -/
theorem directionIsNeverConsulted : Obligations.DirectionIsNeverConsulted := by
  intro i s t d hi h
  obtain ⟨d', hd'⟩ := exec_with_sdir hi h d
  exact ⟨_, hd', rfl, rfl, rfl, rfl, rfl⟩

end Sys2Proof.Machine

/-! ## Proofs: data bits a command does not use -/

namespace Sys2Proof.Machine

open Sys2Proof

/-- The commands that ignore all of `wdata` (R20, R33). -/
def IgnoresData (i : Instr) : Prop := i = .nop ∨ (∃ n, i = .rdsk n) ∨ i = .rdst ∨ i = .clr

section

variable {s t : State} {d : Data}

/-- A command that takes no data operand neither reads `wdata` nor writes it, whether it succeeds or fails. -/
theorem exec_with_wdata_of_ignoresData {i : Instr} (hi : IgnoresData i) (h : exec i s = .next t) (d : Data) :
    exec i { s with wdata := d } = .next { t with wdata := d } := by
  rcases hi with rfl | ⟨n, rfl⟩ | rfl | rfl
  · obtain rfl := complete_eq_next h
    rfl
  · rcases execRdsk_eq_next h with ⟨hn, k, hk, rfl⟩ | ⟨hn, rfl⟩
    · exact execRdsk_of_held (s := { s with wdata := d }) hn hk
    · exact execRdsk_of_slen_le (s := { s with wdata := d }) hn
  · obtain rfl := complete_eq_next h
    rfl
  · obtain rfl := complete_eq_next h
    rfl

/-- LDFK reads `wdata` through its subkey operand alone. -/
theorem execLdfk_with_wdata (hd : subkeyOperand { s with wdata := d } = subkeyOperand s) (h : execLdfk s = .next t) :
    execLdfk { s with wdata := d } = .next { t with wdata := d } := by
  obtain rfl := complete_eq_next h
  rw [execLdfk, hd]
  rfl

/-- FEVAL reads `wdata` through its half-block operand alone. -/
theorem execFeval_with_wdata (hd : halfOperand { s with wdata := d } = halfOperand s) (h : execFeval s = .next t) :
    execFeval { s with wdata := d } = .next { t with wdata := d } := by
  obtain rfl := complete_eq_next h
  rw [execFeval, hd]
  rfl

end

/-- Settles O37: four commands have no data operand, and the operands of LDFK and FEVAL are the bits that agree. -/
theorem ignoredDataBits : Obligations.IgnoredDataBits := by
  rintro i s t d (hi | ⟨rfl, hd⟩ | ⟨rfl, hd⟩) h
  · exact exec_with_wdata_of_ignoresData hi h d
  · exact execLdfk_with_wdata hd h
  · exact execFeval_with_wdata hd h

end Sys2Proof.Machine

/-! ## Proofs: the encoding -/

namespace Sys2Proof.Machine

open Sys2Proof

/-! ### The opcode map, by the operands a command uses -/

/-- The fields of a word with zero in every field but `op` and `n`. -/
def countFields (op : BitVec 4) (n : BitVec 5) : Fields := ⟨op, 0#3, 0#1, 0#3, n⟩

/-- What the opcode map answers for the fields `f` (R53): a command that uses neither `dir` nor `n`, a command that uses
`n`, KSGEN, which uses both, or no command. -/
inductive OpcodeCase (f : Fields) : Prop
  | bare (i : Instr) (hop : f.op.toNat ∈ [0x0, 0x3, 0x4, 0x6, 0x7]) (hf : fieldsOf i = countFields f.op 0#5)
      (hwf : i.wellFormed = true) (hdec : decodeOpcode f = bareCommand f i)
  | count (c : Nat → Instr) (hop : f.op.toNat ∈ [0x2, 0x5])
      (hf : ∀ n, fieldsOf (c n) = countFields f.op (BitVec.ofNat 5 n))
      (hwf : ∀ n, (c n).wellFormed = fitsCountField n) (hdec : decodeOpcode f = countCommand f c)
  | ksgen (hop : f.op = 0x1#4) (hdec : decodeOpcode f = .ok (.ksgen (Direction.ofBit f.dir) f.n.toNat))
  | reserved (hop : 8 ≤ f.op.toNat) (hdec : decodeOpcode f = .error .reservedOpcode)

theorem opcodeCase (f : Fields) : OpcodeCase f := by
  obtain ⟨op, z1, dir, z2, n⟩ := f
  have hlt : op.toNat < 16 := op.isLt
  have hop (k : Nat) (h : op.toNat = k) : op = BitVec.ofNat 4 k := by rw [← h, BitVec.ofNat_toNat, BitVec.setWidth_eq]
  match h : op.toNat with
  | 0x0 => obtain rfl := hop _ h; exact .bare .nop (by simp) rfl rfl rfl
  | 0x1 => obtain rfl := hop _ h; exact .ksgen rfl rfl
  | 0x2 => obtain rfl := hop _ h; exact .count .crypt (by simp) (fun _ => rfl) (fun _ => rfl) rfl
  | 0x3 => obtain rfl := hop _ h; exact .bare .ldfk (by simp) rfl rfl rfl
  | 0x4 => obtain rfl := hop _ h; exact .bare .feval (by simp) rfl rfl rfl
  | 0x5 => obtain rfl := hop _ h; exact .count .rdsk (by simp) (fun _ => rfl) (fun _ => rfl) rfl
  | 0x6 => obtain rfl := hop _ h; exact .bare .rdst (by simp) rfl rfl rfl
  | 0x7 => obtain rfl := hop _ h; exact .bare .clr (by simp) rfl rfl rfl
  | k + 8 => exact .reserved (by simp [h]) (by simp [decodeOpcode, h])

/-! ### Decoding and encoding are inverse -/

theorem toNat_ofNat_of_fits {n : Nat} (hn : fitsCountField n = true) : (BitVec.ofNat 5 n).toNat = n := by
  rw [BitVec.toNat_ofNat]
  exact Nat.mod_eq_of_lt (of_decide_eq_true hn)

theorem fitsCountField_toNat (k : BitVec 5) : fitsCountField k.toNat = true := decide_eq_true k.isLt

theorem bareCommand_eq_ok {f : Fields} {i j : Instr} (h : bareCommand f i = .ok j) :
    f.dir = 0#1 ∧ f.n = 0#5 ∧ i = j := by
  unfold bareCommand at h
  split_ifs at h with hd hn
  exact ⟨not_not.mp hd, not_not.mp hn, Except.ok.inj h⟩

theorem countCommand_eq_ok {f : Fields} {c : Nat → Instr} {j : Instr} (h : countCommand f c = .ok j) :
    f.dir = 0#1 ∧ c f.n.toNat = j := by
  unfold countCommand at h
  split_ifs at h with hd
  exact ⟨not_not.mp hd, Except.ok.inj h⟩

theorem decodeFields_eq_ok {f : Fields} {i : Instr} (h : decodeFields f = .ok i) :
    f.z1 = 0#3 ∧ f.z2 = 0#3 ∧ decodeOpcode f = .ok i := by
  unfold decodeFields at h
  split_ifs at h with h1 h2
  exact ⟨not_not.mp h1, not_not.mp h2, h⟩

theorem decodeFields_fieldsOf {i : Instr} (hi : i.wellFormed = true) : decodeFields (fieldsOf i) = .ok i := by
  cases i with
  | nop => rfl
  | ksgen dir n =>
    show Except.ok (Instr.ksgen (Direction.ofBit dir.bit) (BitVec.ofNat 5 n).toNat) = _
    rw [Direction.ofBit_bit, toNat_ofNat_of_fits hi]
  | crypt n => exact congrArg (fun n => Except.ok (Instr.crypt n)) (toNat_ofNat_of_fits hi)
  | ldfk => rfl
  | feval => rfl
  | rdsk n => exact congrArg (fun n => Except.ok (Instr.rdsk n)) (toNat_ofNat_of_fits hi)
  | rdst => rfl
  | clr => rfl

theorem fieldsOf_of_decodeFields {f : Fields} {i : Instr} (h : decodeFields f = .ok i) :
    i.wellFormed = true ∧ fieldsOf i = f := by
  obtain ⟨hz1, hz2, h⟩ := decodeFields_eq_ok h
  obtain ⟨op, z1, dir, z2, n⟩ := f
  subst hz1 hz2
  cases opcodeCase ⟨op, 0#3, dir, 0#3, n⟩ with
  | bare j hop hf hwf hdec =>
    obtain ⟨rfl, rfl, rfl⟩ := bareCommand_eq_ok (hdec.symm.trans h)
    exact ⟨hwf, hf⟩
  | count c hop hf hwf hdec =>
    obtain ⟨rfl, rfl⟩ := countCommand_eq_ok (hdec.symm.trans h)
    refine ⟨(hwf _).trans (fitsCountField_toNat n), (hf _).trans ?_⟩
    simp [countFields]
  | ksgen hop hdec =>
    obtain rfl : op = 0x1#4 := hop
    cases hdec.symm.trans h
    exact ⟨fitsCountField_toNat n, by simp [fieldsOf]⟩
  | reserved hop hdec => cases hdec.symm.trans h

/-- The words that decode are the words of the well-formed commands, each the word of one command (R50 to R53). -/
theorem decode_eq_ok_iff {w : CmdWord} {i : Instr} : decode w = .ok i ↔ i.wellFormed = true ∧ encode i = w := by
  constructor
  · intro h
    obtain ⟨hwf, hf⟩ := fieldsOf_of_decodeFields h
    exact ⟨hwf, by rw [encode, hf, joinFields_splitWord]⟩
  · rintro ⟨hwf, rfl⟩
    rw [decode_encode_eq, decodeFields_fieldsOf hwf]

/-- Settles O1: joining the fields and splitting them again loses nothing, and the opcode map reads back each field. -/
theorem decodeOfEncode : Obligations.DecodeOfEncode := fun _ hi => decode_eq_ok_iff.mpr ⟨hi, rfl⟩

/-- Settles O2: every arm of the opcode map answers a command whose fields are those of the word. -/
theorem encodeOfDecode : Obligations.EncodeOfDecode := fun _ _ => decode_eq_ok_iff.mp

/-! ### The rows of the opcode table -/

theorem encode_and_mask (i : Instr) : encode i &&& (rowOf i).mask = (rowOf i).pattern := by
  cases i with
  | nop => exact Laws.MatchMask.nop
  | ksgen dir n => exact Laws.MatchMask.ksgen dir n
  | crypt n => exact Laws.MatchMask.crypt n
  | ldfk => exact Laws.MatchMask.ldfk
  | feval => exact Laws.MatchMask.feval
  | rdsk n => exact Laws.MatchMask.rdsk n
  | rdst => exact Laws.MatchMask.rdst
  | clr => exact Laws.MatchMask.clr

theorem splitWord_and (v w : CmdWord) :
    splitWord (v &&& w) =
      ⟨(splitWord v).op &&& (splitWord w).op, (splitWord v).z1 &&& (splitWord w).z1,
       (splitWord v).dir &&& (splitWord w).dir, (splitWord v).z2 &&& (splitWord w).z2,
       (splitWord v).n &&& (splitWord w).n⟩ := by
  simp [splitWord, BitVec.extractLsb'_and]

section

variable {w mask pattern : CmdWord} {op : BitVec 4} {d : BitVec 1} {n : BitVec 5}

/-- The fields of a word that meets a row whose mask covers `op`, `z1` and `z2`, and of `dir` and `n` the bits `d` and
`n`. -/
theorem fields_of_and_mask (hm : splitWord mask = ⟨BitVec.allOnes 4, BitVec.allOnes 3, d, BitVec.allOnes 3, n⟩)
    (hp : splitWord pattern = countFields op 0#5) (h : w &&& mask = pattern) :
    (splitWord w).op = op ∧ (splitWord w).z1 = 0#3 ∧ (splitWord w).dir &&& d = 0#1 ∧ (splitWord w).z2 = 0#3 := by
  have hw := congrArg splitWord h
  simp only [splitWord_and, hm, hp, countFields, BitVec.and_allOnes, Fields.mk.injEq] at hw
  obtain ⟨hop, hz1, hdir, hz2, -⟩ := hw
  exact ⟨hop, hz1, hdir, hz2⟩

/-- A word that meets a row that leaves only `n` open. -/
theorem splitWord_of_and_countMask (hp : splitWord pattern = countFields op 0#5) (h : w &&& 0xFFE0#16 = pattern) :
    splitWord w = countFields op (splitWord w).n := by
  obtain ⟨hop, hz1, hdir, hz2⟩ := fields_of_and_mask (d := BitVec.allOnes 1) (n := 0#5) (by decide) hp h
  rw [BitVec.and_allOnes] at hdir
  generalize splitWord w = f at hop hz1 hdir hz2
  obtain ⟨op', z1, dir, z2, n⟩ := f
  subst hop hz1 hdir hz2
  rfl

theorem decode_of_and_fullMask {i : Instr} (hi : decode pattern = .ok i) (h : w &&& 0xFFFF#16 = pattern) :
    decode w = .ok i := by
  have hw : w = pattern := (BitVec.and_allOnes (x := w)).symm.trans h
  rw [hw, hi]

theorem decode_of_and_cryptMask (h : w &&& 0xFFE0#16 = 0x2000#16) : decode w = .ok (.crypt (splitWord w).n.toNat) := by
  have hw := splitWord_of_and_countMask (op := 0x2#4) (by decide) h
  rw [decode, hw]
  rfl

theorem decode_of_and_rdskMask (h : w &&& 0xFFE0#16 = 0x5000#16) : decode w = .ok (.rdsk (splitWord w).n.toNat) := by
  have hw := splitWord_of_and_countMask (op := 0x5#4) (by decide) h
  rw [decode, hw]
  rfl

theorem decode_of_and_ksgenMask (h : w &&& 0xFEE0#16 = 0x1000#16) :
    decode w = .ok (.ksgen (Direction.ofBit (splitWord w).dir) (splitWord w).n.toNat) := by
  obtain ⟨hop, hz1, -, hz2⟩ := fields_of_and_mask (op := 0x1#4) (d := 0#1) (n := 0#5) (by decide) (by decide) h
  simp [decode, decodeFields, decodeOpcode, hop, hz1, hz2]

end

/-- A word that meets a row of the table decodes to a command of that row. -/
theorem exists_decode_of_and_mask {row : OpcodeRow} (hrow : row ∈ opcodeTable) {w : CmdWord}
    (h : w &&& row.mask = row.pattern) : ∃ i, decode w = .ok i ∧ rowOf i = row := by
  simp only [opcodeTable, List.mem_cons, List.not_mem_nil, or_false] at hrow
  rcases hrow with rfl | rfl | rfl | rfl | rfl | rfl | rfl | rfl
  · exact ⟨.nop, decode_of_and_fullMask (by decide) h, rfl⟩
  · exact ⟨_, decode_of_and_ksgenMask h, rfl⟩
  · exact ⟨_, decode_of_and_cryptMask h, rfl⟩
  · exact ⟨.ldfk, decode_of_and_fullMask (by decide) h, rfl⟩
  · exact ⟨.feval, decode_of_and_fullMask (by decide) h, rfl⟩
  · exact ⟨_, decode_of_and_rdskMask h, rfl⟩
  · exact ⟨.rdst, decode_of_and_fullMask (by decide) h, rfl⟩
  · exact ⟨.clr, decode_of_and_fullMask (by decide) h, rfl⟩

/-- Settles O3: the word of a command meets its row, and a word that meets a row has the fields of a command of it. -/
theorem wordNamesCommandByMask : Obligations.WordNamesCommandByMask := by
  refine ⟨rfl, fun row hrow w => ⟨?_, exists_decode_of_and_mask hrow⟩⟩
  rintro ⟨i, hi, rfl⟩
  obtain ⟨-, rfl⟩ := decode_eq_ok_iff.mp hi
  exact encode_and_mask i

/-! ### The operand fields -/

theorem splitWord_of_decode {w : CmdWord} {i : Instr} (h : decode w = .ok i) : splitWord w = fieldsOf i :=
  (fieldsOf_of_decodeFields h).2.symm

theorem toNat_n_splitWord (w : CmdWord) : (splitWord w).n.toNat = w.toNat % 32 := by simp [splitWord]

/-- A count that fits field `n` is the word modulo 32. -/
theorem count_eq_mod {w : CmdWord} {n : Nat} (hn : fitsCountField n = true)
    (hw : (splitWord w).n = BitVec.ofNat 5 n) : n = w.toNat % 32 := by
  rw [← toNat_n_splitWord, hw, toNat_ofNat_of_fits hn]

/-- Settles O4: the fields of a word that decodes are those of its command. -/
theorem operandsAreUnscaledFields : Obligations.OperandsAreUnscaledFields := by
  intro w
  refine ⟨fun d n h => ⟨?_, ?_⟩, fun n h => ?_, fun n h => ?_⟩
  · exact (congrArg Fields.dir (splitWord_of_decode h)).symm
  · exact count_eq_mod (decode_eq_ok_iff.mp h).1 (congrArg Fields.n (splitWord_of_decode h))
  · exact count_eq_mod (decode_eq_ok_iff.mp h).1 (congrArg Fields.n (splitWord_of_decode h))
  · exact count_eq_mod (decode_eq_ok_iff.mp h).1 (congrArg Fields.n (splitWord_of_decode h))

/-! ### Illegal words -/

theorem bareCommand_error_iff (f : Fields) (i : Instr) :
    (∃ e, bareCommand f i = .error e) ↔ f.dir ≠ 0#1 ∨ f.n ≠ 0#5 := by
  unfold bareCommand
  split_ifs with hd hn <;> simp [*]

theorem countCommand_error_iff (f : Fields) (c : Nat → Instr) :
    (∃ e, countCommand f c = .error e) ↔ f.dir ≠ 0#1 := by
  unfold countCommand
  split_ifs with hd <;> simp [hd]

theorem decodeFields_error_iff (f : Fields) :
    (∃ e, decodeFields f = .error e) ↔ f.z1 ≠ 0#3 ∨ f.z2 ≠ 0#3 ∨ ∃ e, decodeOpcode f = .error e := by
  unfold decodeFields
  split_ifs with h1 h2 <;> simp [*]

theorem bit_eq_one_iff (b : BitVec 1) : b = 1#1 ↔ b ≠ 0#1 := by
  revert b
  decide

/-- The last three conditions of R54: those on `op`, `dir` and `n`. -/
theorem decodeOpcode_error_iff (f : Fields) :
    (∃ e, decodeOpcode f = .error e) ↔
      8 ≤ f.op.toNat ∨ (f.dir = 1#1 ∧ f.op.toNat ≠ 1) ∨ (f.n ≠ 0#5 ∧ f.op.toNat ∈ [0x0, 0x3, 0x4, 0x6, 0x7]) := by
  rw [bit_eq_one_iff]
  cases opcodeCase f with
  | bare i hop hf hwf hdec =>
    have hne : ¬ 8 ≤ f.op.toNat ∧ f.op.toNat ≠ 1 := by
      simp only [List.mem_cons, List.not_mem_nil, or_false] at hop
      omega
    rw [hdec, bareCommand_error_iff]
    tauto
  | count c hop hf hwf hdec =>
    have hne : ¬ 8 ≤ f.op.toNat ∧ f.op.toNat ≠ 1 ∧ f.op.toNat ∉ [0x0, 0x3, 0x4, 0x6, 0x7] := by
      simp only [List.mem_cons, List.not_mem_nil, or_false] at hop ⊢
      omega
    rw [hdec, countCommand_error_iff]
    tauto
  | ksgen hop hdec => simp [hdec, hop]
  | reserved hop hdec => simp [hdec, hop]

theorem decode_error_iff (w : CmdWord) : (∃ e, decode w = .error e) ↔ IllegalWord w := by
  rw [decode, decodeFields_error_iff, decodeOpcode_error_iff]
  rfl

/-- Settles O5: the decoder's checks are the conditions of R54, and every word it rejects drives `E_ILLEGAL`. -/
theorem illegalWordFails : Obligations.IllegalWordFails := by
  refine ⟨decode_error_iff, fun s w hw => ?_⟩
  obtain ⟨e, he⟩ := (decode_error_iff w).mpr hw
  exact runWord_of_error he s

/-! ### Pseudo-commands and worked encodings -/

/-- Field `n` lies in the low bits of the word (R51). -/
theorem joinFields_eq_or_count (f : Fields) : joinFields f = joinFields { f with n := 0#5 } ||| f.n.setWidth 16 := by
  ext i hi
  simp [joinFields]
  grind

theorem setWidth_ofNat_of_lt {n : Nat} (hn : n < 32) : (BitVec.ofNat 5 n).setWidth 16 = BitVec.ofNat 16 n := by
  apply BitVec.eq_of_toNat_eq
  simp only [BitVec.toNat_setWidth, BitVec.toNat_ofNat]
  omega

theorem encode_ksgen {n : Nat} (hn : n < 32) (dir : Direction) :
    encode (.ksgen dir n) = encode (.ksgen dir 0) ||| BitVec.ofNat 16 n :=
  (joinFields_eq_or_count _).trans (congrArg _ (setWidth_ofNat_of_lt hn))

/-- Settles O6: each expansion is by definition, and the word of KSGEN is its word for 0 with the count in the low
bits. -/
theorem pseudoCommandsExpand : Obligations.PseudoCommandsExpand := by
  refine ⟨fun _ => rfl, fun _ => rfl, rfl, fun n hn => ⟨?_, ?_, by decide⟩⟩
  · exact encode_ksgen hn .encrypt
  · exact encode_ksgen hn .decrypt

/-- Settles O7: the decoder evaluated on fourteen fixed words. -/
theorem workedEncodingsDecode : Obligations.WorkedEncodingsDecode := by
  unfold Obligations.WorkedEncodingsDecode
  decide

end Sys2Proof.Machine

/-! ## Proofs: the permutation networks -/

namespace Sys2Proof.Machine

open Sys2Proof

/-! ### Bit selection by a table -/

/-- A value is its bits in the numbering from the most significant end (R3). -/
theorem eq_of_bitMsb_eq {W : Nat} {v w : BitVec W} (h : ∀ j < W, bitMsb v (j + 1) = bitMsb w (j + 1)) : v = w := by
  apply BitVec.eq_of_getLsbD_eq
  intro i hi
  have hbit := h (W - 1 - i) (by omega)
  have position : W - (W - 1 - i + 1) = i := by omega
  rwa [bitMsb, bitMsb, position] at hbit

/-- R70, in the numbering from the most significant end. -/
theorem bitMsb_perm {m W : Nat} (T : Vector Nat m) (v : BitVec W) (j : Nat) (h : j < m) :
    bitMsb (perm T v) (j + 1) = bitMsb v T[j] := by
  have position : m - 1 - (m - (j + 1)) = j := by omega
  simp only [bitMsb, getLsbD_perm T v (m - (j + 1)) (by omega), position]

/-- Settles O40: the two clauses say the same in the two numberings. -/
theorem permSelectsTableBits : Obligations.PermSelectsTableBits :=
  fun _ _ T v j h => ⟨bitMsb_perm T v j h, bitMsb_perm T v j h⟩

/-! ### Mutually inverse tables -/

section

variable {ip fp : Vector Nat 64}

theorem InverseTables.symm (h : InverseTables ip fp) : InverseTables fp ip := fun j => (h j).symm

/-- An entry read by `getD` that is not the default 0 is in the table. -/
theorem exists_getElem_of_getD {m : Nat} {T : Vector Nat m} {i k : Nat} (h : T.toList.getD i 0 = k + 1) :
    ∃ hi : i < m, T[i] = k + 1 := by
  by_cases hi : i < m
  · exact ⟨hi, by simpa [hi] using h⟩
  · simp [hi] at h

/-- The entry of `fp` at `j` is not 0: it would send `ip[0]` to `j`, and `fp` there is 1. -/
theorem InverseTables.getElem_ne_zero (h : InverseTables ip fp) (j : Fin 64) : fp[j] ≠ 0 := by
  intro hzero
  obtain ⟨_, hip⟩ := exists_getElem_of_getD (h j).2
  obtain ⟨_, hfp⟩ := exists_getElem_of_getD (h 0).1
  have hback : ip[(0 : Fin 64)] - 1 = j.val := by
    simp only [hzero] at hip
    exact Nat.sub_eq_of_eq_add hip
  simp only [hback] at hfp
  exact absurd (hfp.symm.trans hzero) (by simp)

/-- The entry of `fp` at `j` is the position, from 1, at which `ip` holds `j`. -/
theorem InverseTables.exists_position (h : InverseTables ip fp) (j : Fin 64) :
    ∃ k : Fin 64, fp[j] = k.val + 1 ∧ ip[k] = j.val + 1 := by
  obtain ⟨hlt, hip⟩ := exists_getElem_of_getD (h j).2
  have hpos := h.getElem_ne_zero j
  exact ⟨⟨fp[j] - 1, hlt⟩, (Nat.succ_pred hpos).symm, hip⟩

/-- A selection by `ip` and then by `fp` gives the value back. -/
theorem InverseTables.perm_perm (h : InverseTables ip fp) (v : Data) : perm fp (perm ip v) = v := by
  apply eq_of_bitMsb_eq
  intro j hj
  obtain ⟨k, hfp, hip⟩ := h.exists_position ⟨j, hj⟩
  calc bitMsb (perm fp (perm ip v)) (j + 1)
      = bitMsb (perm ip v) fp[j] := bitMsb_perm _ _ _ hj
    _ = bitMsb (perm ip v) (k.val + 1) := congrArg _ hfp
    _ = bitMsb v ip[k] := bitMsb_perm _ _ _ k.isLt
    _ = bitMsb v (j + 1) := congrArg _ hip

end

/-! ### The standard tables -/

/-- R72, entry by entry. -/
theorem tableShapes_standardTables : TableShapes standardTables := by
  constructor <;> decide +kernel

/-- Every row of every substitution table is a permutation of 0 to 15 (R77 to R84). -/
theorem count_sbox_row (j : Fin 8) (row : Fin 4) (v : BitVec 4) :
    ((standardTables.sbox[j].toList.drop (16 * row.val)).take 16).count v = 1 := by
  revert j row v
  decide +kernel

/-- Settles O41: the fixed tables, evaluated. -/
theorem standardTablesHaveStatedShapes : Obligations.StandardTablesHaveStatedShapes :=
  ⟨tableShapes_standardTables, by decide, by decide, by decide, count_sbox_row⟩

/-- Settles O42: the standard tables are mutually inverse, in both directions. -/
theorem finalUndoesInitial : Obligations.FinalUndoesInitial := by
  have inverse : InverseTables tableIP tableFP := tableShapes_standardTables.inverse
  exact ⟨fun j => (inverse j).1, fun v => ⟨inverse.perm_perm v, inverse.symm.perm_perm v⟩⟩

/-! ### The 28-bit rotation -/

theorem toNat_rotl28 (v : HalfReg) (s : Nat) :
    (rotl28 v s).toNat = ((v.toNat <<< s) ||| (v.toNat >>> (28 - s))) % 2 ^ 28 := by
  have hright : v.toNat >>> (28 - s) < 2 ^ 28 := (Nat.shiftRight_le _ _).trans_lt v.isLt
  rw [rotl28, BitVec.toNat_or, BitVec.toNat_shiftLeft, BitVec.toNat_ushiftRight, Nat.or_mod_two_pow,
    Nat.mod_eq_of_lt hright]

/-- R88, in the numbering from the most significant end. -/
theorem bitMsb_rotl28 (v : HalfReg) {s : Nat} (hs : s ≤ 28) {n : Nat} (h1 : 1 ≤ n) (h28 : n ≤ 28) :
    bitMsb (rotl28 v s) n = bitMsb v ((n - 1 + s) % 28 + 1) := by
  have position : (28 - n + 28 - s) % 28 = 28 - ((n - 1 + s) % 28 + 1) := by omega
  rw [bitMsb, getLsbD_rotl28 v hs _ (by omega), position, bitMsb]

/-- Rotations in a row add their amounts. -/
theorem bitMsb_foldl_rotl28 (v : HalfReg) {amounts : List Nat} (hs : ∀ a ∈ amounts, a ≤ 28) {n : Nat} (h1 : 1 ≤ n)
    (h28 : n ≤ 28) : bitMsb (amounts.foldl rotl28 v) n = bitMsb v ((n - 1 + amounts.sum) % 28 + 1) := by
  induction amounts generalizing v with
  | nil =>
    have position : (n - 1 + 0) % 28 + 1 = n := by omega
    rw [List.foldl_nil, List.sum_nil, position]
  | cons a amounts ih =>
    obtain ⟨ha, hrest⟩ := List.forall_mem_cons.mp hs
    have position : ((n - 1 + amounts.sum) % 28 + 1 - 1 + a) % 28 = (n - 1 + (a + amounts.sum)) % 28 := by omega
    rw [List.foldl_cons, ih (rotl28 v a) hrest, bitMsb_rotl28 v ha (by omega) (by omega), position, List.sum_cons]

/-- Rotations by amounts that sum to the width give the value back. -/
theorem foldl_rotl28_of_sum_eq (v : HalfReg) {amounts : List Nat} (hsum : amounts.sum = 28) :
    amounts.foldl rotl28 v = v := by
  apply eq_of_bitMsb_eq
  intro j hj
  have hs : ∀ a ∈ amounts, a ≤ 28 := fun a ha => hsum ▸ List.single_le_sum (by simp) a ha
  have position : (j + 1 - 1 + 28) % 28 + 1 = j + 1 := by omega
  rw [bitMsb_foldl_rotl28 v hs (by omega) hj, hsum, position]

/-- Settles O43: an amount of 1 or 2 is at most 28, and amounts that sum to 28 turn every bit once round. -/
theorem rotationLosesNoBit : Obligations.RotationLosesNoBit :=
  ⟨fun v s hs => ⟨toNat_rotl28 v s, fun _ hn => bitMsb_rotl28 v (by omega) hn.1 hn.2⟩,
    fun v _ _ hsum => foldl_rotl28_of_sum_eq v hsum⟩

/-! ### The substitution layer -/

theorem sboxRow_eq (g : BitVec 6) : sboxRow g = 2 * (g.toNat / 32) + g.toNat % 2 := by
  revert g
  decide

theorem sboxColumn_eq (g : BitVec 6) : sboxColumn g = g.toNat / 2 % 16 := by
  simp [sboxColumn, Nat.shiftRight_eq_div_pow]

theorem toNat_sboxGroup (x : BitVec 48) (j : Nat) : (sboxGroup x j).toNat = x.toNat / 2 ^ (48 - 6 * j) % 64 := by
  simp [sboxGroup, Nat.shiftRight_eq_div_pow]

/-- Nibble `j`, counted from 0 at the most significant end, is table `S_{j+1}` looked up at group `g_{j+1}` (R91). -/
theorem getLsbD_sub (T : Tables) (x : BitVec 48) (j : Nat) (hj : j < 8) (r : Nat) (hr : r < 4) :
    (sub T x).getLsbD (32 - 4 * (j + 1) + r) = (sboxLookup T.sbox[j] (sboxGroup x (j + 1))).getLsbD r := by
  simp only [sub, BitVec.getLsbD_append]
  interval_cases j <;> grind

theorem extractLsb'_sub (T : Tables) (x : BitVec 48) (j : Fin 8) :
    (sub T x).extractLsb' (32 - 4 * (j.val + 1)) 4 = sboxLookup T.sbox[j] (sboxGroup x (j.val + 1)) := by
  apply BitVec.eq_of_getLsbD_eq
  intro r hr
  rw [BitVec.getLsbD_extractLsb', decide_eq_true hr, Bool.true_and]
  exact getLsbD_sub T x j j.isLt r hr

theorem some_sboxLookup (S : Vector (BitVec 4) 64) (g : BitVec 6) :
    some (sboxLookup S g) = S.toList[16 * (2 * (g.toNat / 32) + g.toNat % 2) + g.toNat / 2 % 16]? := by
  rw [← sboxRow_eq, ← sboxColumn_eq]
  simp [sboxLookup, sboxIndex_lt]

/-- Settles O44: the nibble is a table lookup (R91), its row and column arithmetic on the group (R90). -/
theorem substitutionByRowAndColumn : Obligations.SubstitutionByRowAndColumn := by
  intro T x j g
  have hg : (sboxGroup x (j.val + 1)).toNat = g := toNat_sboxGroup x _
  rw [extractLsb'_sub, some_sboxLookup, hg]

end Sys2Proof.Machine

/-! ## Proofs: the key schedule -/

namespace Sys2Proof.Machine

open Sys2Proof

/-! ### The half-registers -/

/-- Bit `n` of a field of `w` bits from bit `start` upwards is bit `k` of the value, both counted from the most
significant end, where `k` is `n` plus the number of bits above the field. -/
theorem bitMsb_extractLsb' {W : Nat} (v : BitVec W) {start w n k : Nat} (hk : k + (start + w) = W + n) (h1 : 1 ≤ n)
    (hn : n ≤ w) : bitMsb (v.extractLsb' start w) n = bitMsb v k := by
  have inside : w - n < w := by omega
  have position : start + (w - n) = W - k := by omega
  rw [bitMsb, BitVec.getLsbD_extractLsb', decide_eq_true inside, Bool.true_and, position, bitMsb]

theorem bitMsb_selectKey_c (T : Tables) (key : Data) {b : Nat} (h : b < 28) :
    bitMsb (selectKey T key).c (b + 1) = bitMsb key T.pc1[b] :=
  calc bitMsb (selectKey T key).c (b + 1)
      = bitMsb (perm T.pc1 key) (b + 1) := bitMsb_extractLsb' _ (by omega) (by omega) h
    _ = bitMsb key T.pc1[b] := bitMsb_perm _ _ _ _

theorem bitMsb_selectKey_d (T : Tables) (key : Data) {b : Nat} (h : b < 28) :
    bitMsb (selectKey T key).d (b + 1) = bitMsb key T.pc1[28 + b] :=
  calc bitMsb (selectKey T key).d (b + 1)
      = bitMsb (perm T.pc1 key) (28 + b + 1) := bitMsb_extractLsb' _ (by omega) (by omega) h
    _ = bitMsb key T.pc1[28 + b] := bitMsb_perm _ _ _ _

/-- Settles O46: `C_0` and `D_0` are the two halves of what `PC1` selects (R101). -/
theorem keySelectionBits : Obligations.KeySelectionBits :=
  fun key _ h => ⟨bitMsb_selectKey_c standardTables key h, bitMsb_selectKey_d standardTables key h⟩

/-- Both half-registers after rotations by these amounts, one after the other (R102). -/
def rotateAll (amounts : List Nat) (h : HalfRegs) : HalfRegs :=
  { c := amounts.foldl rotl28 h.c, d := amounts.foldl rotl28 h.d }

theorem rotateAll_append (l : List Nat) (a : Nat) (h : HalfRegs) :
    rotateAll (l ++ [a]) h = rotateRegs a (rotateAll l h) := by
  simp [rotateAll, rotateRegs]

theorem rotateAll_of_sum_eq (h : HalfRegs) {amounts : List Nat} (hsum : amounts.sum = 28) :
    rotateAll amounts h = h := by
  simp [rotateAll, foldl_rotl28_of_sum_eq, hsum]

/-- The first `i + 1` rotation amounts are the first `i` and the one `halfRegsAt` reads. -/
theorem take_shift_succ (T : Tables) {i : Nat} (hi : i < 16) :
    T.shift.toList.take (i + 1) = T.shift.toList.take i ++ [T.shift.toList.getD i 0] := by
  have hlen : i < T.shift.toList.length := by simpa using hi
  rw [← List.take_append_getElem hlen, List.getElem_eq_getD 0]

/-- The rotations accumulate: the half-registers are not reloaded between rounds (R102). -/
theorem halfRegsAt_eq_rotateAll (T : Tables) (key : Data) {i : Nat} (hi : i ≤ 16) :
    halfRegsAt T key i = rotateAll (T.shift.toList.take i) (selectKey T key) := by
  induction i with
  | zero => rfl
  | succ i ih => rw [halfRegsAt, ih (by omega), take_shift_succ T hi, rotateAll_append]

/-! ### The generated subkeys -/

/-- One more round compresses the registers after all rotations so far and its own. -/
theorem roundSteps_append (T : Tables) (l : List Nat) (a : Nat) (h : HalfRegs) :
    roundSteps T (l ++ [a]) h = roundSteps T l h ++ [compress T (rotateAll (l ++ [a]) h)] := by
  induction l generalizing h with
  | nil => rfl
  | cons b l ih =>
    rw [List.cons_append, roundSteps, ih]
    rfl

theorem generatedSubkeys_succ (T : Tables) (key : Data) {n : Nat} (hn : n < 16) :
    generatedSubkeys T key (n + 1) = generatedSubkeys T key n ++ [roundKey T key (n + 1)] := by
  rw [generatedSubkeys, take_shift_succ T hn, roundSteps_append, ← take_shift_succ T hn,
    ← halfRegsAt_eq_rotateAll T key hn]
  rfl

theorem generatedSubkeys_eq_map_roundKey (T : Tables) (key : Data) {n : Nat} (hn : n ≤ 16) :
    generatedSubkeys T key n = (List.range n).map fun i => roundKey T key (i + 1) := by
  induction n with
  | zero => rfl
  | succ n ih => simp [generatedSubkeys_succ T key hn, ih (by omega), List.range_succ]

/-- Settles O47: by induction on the number of rounds, each of which appends its subkey. -/
theorem generatedSubkeysFollowRecurrence : Obligations.GeneratedSubkeysFollowRecurrence :=
  fun T key _ hn => generatedSubkeys_eq_map_roundKey T key hn

/-! ### The order of the schedule -/

section

variable (T : Tables) (key : Data) {n : Nat} (hn : n ≤ 16)

include hn

theorem getElem?_schedule_encrypt {j : Nat} (hj : j < n) :
    (schedule T .encrypt n key)[j]? = some (roundKey T key (j + 1)) := by
  simp [schedule, storageOrder, generatedSubkeys_eq_map_roundKey T key hn, hj]

theorem getElem?_schedule_decrypt {j : Nat} (hj : j < n) :
    (schedule T .decrypt n key)[j]? = some (roundKey T key (n - j)) := by
  have round : n - 1 - j + 1 = n - j := by omega
  simp [schedule, storageOrder, generatedSubkeys_eq_map_roundKey T key hn, hj, round]

theorem getElem?_schedule_of_le (dir : Direction) {j : Nat} (hj : n ≤ j) : (schedule T dir n key)[j]? = none :=
  List.getElem?_eq_none ((length_schedule T dir key hn).trans_le hj)

end

/-- The encrypt schedule of `n` rounds is the beginning of every longer one from the same key (R104). -/
theorem take_schedule_encrypt (T : Tables) (key : Data) {n m : Nat} (hnm : n ≤ m) (hm : m ≤ 16) :
    (schedule T .encrypt m key).take n = schedule T .encrypt n key := by
  simp [schedule, storageOrder, generatedSubkeys_eq_map_roundKey T key, hm, hnm.trans hm, ← List.map_take,
    List.take_range, hnm]

/-- Settles O48: every entry is the subkey of a round, whatever the number of rounds. -/
theorem encryptScheduleIsPrefix : Obligations.EncryptScheduleIsPrefix := by
  intro T key n m h1 hnm hm
  have hn : n ≤ 16 := hnm.trans hm
  exact ⟨fun i hi => getElem?_schedule_encrypt T key hn hi, take_schedule_encrypt T key hnm hm,
    getElem?_schedule_decrypt T key hn h1⟩

/-! ### KSGEN -/

/-- Settles O22: the outcome of an illegal round count, field by field. -/
theorem ksgenRejectsRoundCount : Obligations.KsgenRejectsRoundCount :=
  fun s dir _ hn => execKsgen_of_illegal hn dir s

/-- Settles O28: KSGEN stores the schedule, whose entry `j` is a round's subkey in the direction's order and which has
no entry from `n` on. -/
theorem ksgenReplacesSchedule : Obligations.KsgenReplacesSchedule := by
  intro s dir n ⟨h1, h16⟩
  refine ⟨_, execKsgen_of_legal h1 h16 dir s, ?slen, by simp, by simp, fun j => ?slot, rfl, rfl, by simp⟩
  case slen =>
    have hfits : n % 32 = n := Nat.mod_eq_of_lt (by omega)
    simpa using hfits
  case slot =>
    simp only [driveOutputs_sk, storeSchedule_sk, Fin.getElem_fin, slotsOf_getElem]
    split_ifs with hj
    · cases dir with
      | encrypt => exact getElem?_schedule_encrypt _ _ h16 hj
      | decrypt => exact getElem?_schedule_decrypt _ _ h16 hj
    · exact getElem?_schedule_of_le _ _ h16 dir (Nat.le_of_not_lt hj)

/-! ### The parity bits -/

/-- A selection reads no bit but those its table names (R70). -/
theorem perm_congr {m W : Nat} {T : Vector Nat m} {v w : BitVec W} (h : ∀ t ∈ T.toList, bitMsb v t = bitMsb w t) :
    perm T v = perm T w := by
  apply eq_of_bitMsb_eq
  intro j hj
  rw [bitMsb_perm T v j hj, bitMsb_perm T w j hj]
  exact h _ (by simp)

/-- `PC1` names no parity position, so the schedule does not depend on one (R105). -/
theorem schedule_eq_of_agree {T : Tables} (hT : TableShapes T) {key key' : Data}
    (h : ∀ b, 1 ≤ b ∧ b ≤ 64 → b % 8 ≠ 0 → bitMsb key b = bitMsb key' b) (dir : Direction) (n : Nat) :
    schedule T dir n key = schedule T dir n key' := by
  have selected : perm T.pc1 key = perm T.pc1 key' :=
    perm_congr fun t ht => h t (hT.pc1_range t ht) (hT.pc1_parity t ht)
  simp only [schedule, generatedSubkeys, selectKey, selected]

/-- Settles O49: a legal round count stores the same schedule, and an illegal one stores nothing. -/
theorem parityBitsHaveNoEffect : Obligations.ParityBitsHaveNoEffect := by
  intro s key key' dir n h
  by_cases hn : 1 ≤ n ∧ n ≤ 16
  · refine ⟨_, _, execKsgen_of_legal hn.1 hn.2 dir _, execKsgen_of_legal hn.1 hn.2 dir _, ?_, by simp, by simp⟩
    simp [State.arch, rawKey, schedule_eq_of_agree tableShapes_standardTables h]
  · exact ⟨_, _, execKsgen_of_illegal hn dir _, execKsgen_of_illegal hn dir _, rfl, rfl, rfl⟩

/-! ### Constant keys -/

theorem bitMsb_fill (W : Nat) (b : Bool) {n : Nat} (h1 : 1 ≤ n) (hW : n ≤ W) : bitMsb (BitVec.fill W b) n = b := by
  have inside : W - n < W := by omega
  simp [bitMsb, inside, -BitVec.getLsbD_eq_getElem]

/-- A selection from equal bits gives equal bits. -/
theorem perm_fill {m W : Nat} {T : Vector Nat m} (hT : EntriesWithin W T) (b : Bool) :
    perm T (BitVec.fill W b) = BitVec.fill m b := by
  apply eq_of_bitMsb_eq
  intro j hj
  obtain ⟨h1, hW⟩ := hT T[j] (by simp)
  rw [bitMsb_perm T _ j hj, bitMsb_fill W b h1 hW, bitMsb_fill m b (by omega) hj]

theorem rotl28_fill {a : Nat} (ha : a ≤ 28) (b : Bool) : rotl28 (BitVec.fill 28 b) a = BitVec.fill 28 b := by
  apply eq_of_bitMsb_eq
  intro j hj
  rw [bitMsb_rotl28 _ ha (by omega) hj, bitMsb_fill 28 b (by omega) (by omega), bitMsb_fill 28 b (by omega) hj]

/-- Both half-registers with every bit `b`. -/
def constantRegs (b : Bool) : HalfRegs := { c := BitVec.fill 28 b, d := BitVec.fill 28 b }

theorem selectKey_of_perm_eq_fill {T : Tables} {key : Data} {b : Bool} (h : perm T.pc1 key = BitVec.fill 56 b) :
    selectKey T key = constantRegs b := by
  rw [selectKey, h]
  cases b <;> rfl

theorem compress_constantRegs {T : Tables} (hT : TableShapes T) (b : Bool) :
    compress T (constantRegs b) = BitVec.fill 48 b := by
  have joined : BitVec.fill 28 b ++ BitVec.fill 28 b = BitVec.fill 56 b := by cases b <;> rfl
  rw [compress, constantRegs, joined, perm_fill hT.pc2_range]

theorem shift_getD_le {T : Tables} (hT : TableShapes T) (i : Nat) : T.shift.toList.getD i 0 ≤ 2 := by
  rw [List.getD_eq_getElem?_getD]
  cases h : T.shift.toList[i]? with
  | none => exact Nat.zero_le 2
  | some a => exact (hT.shift_range a (List.mem_of_getElem? h)).2

theorem halfRegsAt_of_constant {T : Tables} (hT : TableShapes T) {key : Data} {b : Bool}
    (h : perm T.pc1 key = BitVec.fill 56 b) (i : Nat) : halfRegsAt T key i = constantRegs b := by
  induction i with
  | zero => exact selectKey_of_perm_eq_fill h
  | succ i ih =>
    have hamount : T.shift.toList.getD i 0 ≤ 28 := (shift_getD_le hT i).trans (by omega)
    rw [halfRegsAt, ih, rotateRegs, constantRegs, rotl28_fill hamount]

/-- A key whose selected bits are all `b` has subkeys of that bit alone (R100). -/
theorem eq_fill_of_mem_generatedSubkeys {T : Tables} (hT : TableShapes T) {key : Data} {b : Bool}
    (h : perm T.pc1 key = BitVec.fill 56 b) {n : Nat} (hn : n ≤ 16) {k : Subkey}
    (hk : k ∈ generatedSubkeys T key n) : k = BitVec.fill 48 b := by
  rw [generatedSubkeys_eq_map_roundKey T key hn] at hk
  obtain ⟨i, -, rfl⟩ := List.mem_map.mp hk
  rw [roundKey, halfRegsAt_of_constant hT h, compress_constantRegs hT]

/-- Sixteen rounds turn each half-register once round, where the rotation amounts sum to its width (R74). -/
theorem halfRegsAt_sixteen {T : Tables} (hsum : T.shift.toList.sum = 28) (key : Data) :
    halfRegsAt T key 16 = halfRegsAt T key 0 := by
  have hall : T.shift.toList.take 16 = T.shift.toList := List.take_of_length_le (by simp)
  rw [halfRegsAt_eq_rotateAll T key le_rfl, hall, rotateAll_of_sum_eq _ hsum, halfRegsAt]

/-- Settles O50: equal bits stay equal through rotation and compression, and the sixteen amounts sum to 28. -/
theorem constantKeysAndFullRotation : Obligations.ConstantKeysAndFullRotation := by
  refine ⟨fun key n hn h k hk => ?_, fun key n hn h k hk => ?_, halfRegsAt_sixteen (by decide)⟩
  · rw [← BitVec.fill_false] at h ⊢
    exact eq_fill_of_mem_generatedSubkeys tableShapes_standardTables h hn hk
  · rw [← BitVec.fill_true] at h ⊢
    exact eq_fill_of_mem_generatedSubkeys tableShapes_standardTables h hn hk

end Sys2Proof.Machine

/-! ## Proofs: the round function -/

namespace Sys2Proof.Machine

open Sys2Proof

/-! ### Bits of a combination -/

theorem bitMsb_zero (W n : Nat) : bitMsb (0#W) n = false := BitVec.getLsbD_zero

theorem bitMsb_xor {W : Nat} (v w : BitVec W) (n : Nat) : bitMsb (v ^^^ w) n = (bitMsb v n ^^ bitMsb w n) :=
  BitVec.getLsbD_xor

/-- A selection from the value 0 is 0, whatever the entries of the table. -/
theorem perm_zero {m W : Nat} (T : Vector Nat m) : perm T (0#W) = 0#m := by
  apply eq_of_bitMsb_eq
  intro j hj
  rw [bitMsb_perm T _ j hj, bitMsb_zero, bitMsb_zero]

/-- Settles O51: the expansion of 0 is 0 (R123). -/
theorem roundFunctionThroughXor : Obligations.RoundFunctionThroughXor := by
  intro T r k
  rw [roundF, roundF, perm_zero, BitVec.zero_xor, BitVec.xor_comm]

/-! ### The bits an output bit depends on -/

/-- A group is its six bits (R91). -/
theorem sboxGroup_congr {x y : BitVec 48} {j : Nat} (hj : j < 8)
    (h : ∀ q, 6 * j + 1 ≤ q ∧ q ≤ 6 * j + 6 → bitMsb x q = bitMsb y q) :
    sboxGroup x (j + 1) = sboxGroup y (j + 1) := by
  apply eq_of_bitMsb_eq
  intro i hi
  have bit (v : BitVec 48) : bitMsb (sboxGroup v (j + 1)) (i + 1) = bitMsb v (6 * j + i + 1) :=
    bitMsb_extractLsb' v (by omega) (by omega) hi
  rw [bit x, bit y]
  exact h _ (by omega)

/-- Bit `p` of the substituted value is a bit of nibble `(p-1) div 4` (R91). -/
theorem bitMsb_sub (T : Tables) (x : BitVec 48) {p : Nat} (h1 : 1 ≤ p) (h32 : p ≤ 32) :
    bitMsb (sub T x) p =
      bitMsb (sboxLookup T.sbox[(p - 1) / 4] (sboxGroup x ((p - 1) / 4 + 1))) ((p - 1) % 4 + 1) := by
  have position : 32 - p = 32 - 4 * ((p - 1) / 4 + 1) + (4 - ((p - 1) % 4 + 1)) := by omega
  rw [bitMsb, position, getLsbD_sub T x _ (by omega) _ (by omega), bitMsb]

/-- Bit `q` of the value that is substituted is bit `q` of the subkey with the bit of the half-block that `E` selects
there (R120). -/
theorem bitMsb_expand_xor (T : Tables) (r : Half) (k : Subkey) {q : Nat} (h1 : 1 ≤ q) (h48 : q ≤ 48) :
    bitMsb (perm T.e r ^^^ k) q = (bitMsb r (T.e.toList.getD (q - 1) 0) ^^ bitMsb k q) := by
  obtain ⟨i, rfl⟩ : ∃ i, q = i + 1 := ⟨q - 1, by omega⟩
  have hi : i < 48 := h48
  have entry : T.e.toList.getD i 0 = T.e[i] := by simp [hi]
  rw [bitMsb_xor, bitMsb_perm T.e r i hi, Nat.add_sub_cancel, entry]

/-- An output bit of `F` depends on the operands only through the six bits its substitution table reads (R123). -/
theorem bitMsb_roundF_congr {T : Tables} (hP : EntriesWithin 32 T.p) {r r' : Half} {k k' : Subkey} (b : Fin 32)
    (h : ∀ q, 6 * ((T.p[b] - 1) / 4) + 1 ≤ q ∧ q ≤ 6 * ((T.p[b] - 1) / 4) + 6 →
      bitMsb k q = bitMsb k' q ∧ bitMsb r (T.e.toList.getD (q - 1) 0) = bitMsb r' (T.e.toList.getD (q - 1) 0)) :
    bitMsb (roundF T r k) (b.val + 1) = bitMsb (roundF T r' k') (b.val + 1) := by
  obtain ⟨h1, h32⟩ : 1 ≤ T.p[b] ∧ T.p[b] ≤ 32 := hP _ (by simp)
  have group : sboxGroup (perm T.e r ^^^ k) ((T.p[b] - 1) / 4 + 1) =
      sboxGroup (perm T.e r' ^^^ k') ((T.p[b] - 1) / 4 + 1) := by
    refine sboxGroup_congr (by omega) fun q hq => ?_
    obtain ⟨hk, hr⟩ := h q hq
    rw [bitMsb_expand_xor T r k (by omega) (by omega), bitMsb_expand_xor T r' k' (by omega) (by omega), hk, hr]
  calc bitMsb (roundF T r k) (b.val + 1)
      = bitMsb (sub T (perm T.e r ^^^ k)) T.p[b] := bitMsb_perm _ _ _ b.isLt
    _ = bitMsb (sub T (perm T.e r' ^^^ k')) T.p[b] := by rw [bitMsb_sub T _ h1 h32, bitMsb_sub T _ h1 h32, group]
    _ = bitMsb (roundF T r' k') (b.val + 1) := (bitMsb_perm _ _ _ b.isLt).symm

/-- `P` selects from a 32-bit value (R85), entry by entry. -/
theorem entriesWithin_tableP : EntriesWithin 32 tableP := by decide

/-- Settles O52: the entries of `P` are positions of the substituted value. -/
theorem roundFunctionBitDependency : Obligations.RoundFunctionBitDependency :=
  fun _ _ _ _ b h => bitMsb_roundF_congr (T := standardTables) entriesWithin_tableP b h

/-! ### LDFK and FEVAL -/

/-- The subkey operand is the low 48 bits of `wdata`, as a number (R33). -/
theorem subkeyOperand_eq_ofNat (s : State) : subkeyOperand s = BitVec.ofNat 48 (s.wdata.toNat % 2 ^ 48) := by
  apply BitVec.eq_of_toNat_eq
  simp [subkeyOperand]

/-- Settles O26: the outcome of LDFK, with its operand as a number. -/
theorem ldfkLoadsSubkey : Obligations.LdfkLoadsSubkey := by
  intro s
  rw [← subkeyOperand_eq_ofNat]
  rfl

/-- The high half of a zero-extended half-block is 0 (R33). -/
theorem extractLsb'_high_zext64 (v : Half) : (zext64 v).extractLsb' 32 32 = 0#32 := by
  apply BitVec.eq_of_getLsbD_eq
  intro i hi
  simp [zext64]

/-- The low half of a zero-extended half-block is the half-block (R33). -/
theorem extractLsb'_low_zext64 (v : Half) : (zext64 v).extractLsb' 0 32 = v := by
  apply BitVec.eq_of_toNat_eq
  simp [zext64, Nat.mod_eq_of_lt v.isLt]

/-- Settles O27: the outcome of FEVAL, half by half. -/
theorem fevalReturnsRoundFunction : Obligations.FevalReturnsRoundFunction :=
  fun s => ⟨driveOutputs (zext64 (roundF standardTables (halfOperand s) s.fk)) .ok s, rfl, rfl,
    extractLsb'_high_zext64 _, extractLsb'_low_zext64 _⟩

end Sys2Proof.Machine

/-! ## Proofs: the block transform -/

namespace Sys2Proof.Machine

open Sys2Proof

/-! ### The round loop -/

/-- Inner rounds under a list of subkeys, in ascending order (R142). -/
def innerRounds (T : Tables) (ks : List Subkey) (h : Halves) : Halves := ks.foldl (fun h k => innerRound T k h) h

/-- The halves, exchanged. -/
def Halves.swap (h : Halves) : Halves := ⟨h.r, h.l⟩

@[simp] theorem swap_swap (h : Halves) : h.swap.swap = h := rfl

@[simp] theorem innerRounds_nil (T : Tables) (h : Halves) : innerRounds T [] h = h := rfl

theorem innerRounds_cons (T : Tables) (k : Subkey) (ks : List Subkey) (h : Halves) :
    innerRounds T (k :: ks) h = innerRounds T ks (innerRound T k h) := rfl

theorem innerRounds_concat (T : Tables) (ks : List Subkey) (k : Subkey) (h : Halves) :
    innerRounds T (ks ++ [k]) h = innerRound T k (innerRounds T ks h) :=
  List.foldl_concat _ h k ks

/-- The final round is an inner round whose swap is undone (R143). -/
theorem finalRound_eq_swap (T : Tables) (k : Subkey) (h : Halves) : finalRound T k h = (innerRound T k h).swap := rfl

/-- The round loop is a chain of inner rounds whose last swap is undone (R145). -/
theorem feistelRounds_eq_swap (T : Tables) {ks : List Subkey} (hks : ks ≠ []) (h : Halves) :
    feistelRounds T ks h = (innerRounds T ks h).swap := by
  obtain ⟨ks, k, rfl⟩ := (List.eq_nil_or_concat ks).resolve_left hks
  rw [List.concat_eq_append, innerRounds_concat, ← finalRound_eq_swap]
  exact feistelRounds_append T ks k h

/-- An inner round undoes the same inner round on exchanged halves: the old Right is still there to compute `F` from. -/
theorem innerRound_swap_innerRound (T : Tables) (k : Subkey) (h : Halves) :
    innerRound T k (innerRound T k h).swap = h.swap := by
  simp [innerRound, Halves.swap]

/-- Inner rounds under the reversed subkeys undo, on exchanged halves, the last round first (R148). -/
theorem innerRounds_reverse_swap (T : Tables) (ks : List Subkey) (h : Halves) :
    innerRounds T ks.reverse (innerRounds T ks h).swap = h.swap := by
  induction ks generalizing h with
  | nil => rfl
  | cons k ks ih =>
    rw [List.reverse_cons, innerRounds_concat, innerRounds_cons, ih, innerRound_swap_innerRound]

/-- The round loop under the reversed subkeys undoes the round loop: each leaves out its last swap, which is the exchange
the chains of inner rounds need between and after them (R148). -/
theorem feistelRounds_reverse (T : Tables) {ks : List Subkey} (hks : ks ≠ []) (h : Halves) :
    feistelRounds T ks.reverse (feistelRounds T ks h) = h := by
  rw [feistelRounds_eq_swap T hks, feistelRounds_eq_swap T (List.reverse_ne_nil_iff.mpr hks),
    innerRounds_reverse_swap, swap_swap]

/-! ### The entry and exit stages -/

@[simp] theorem leftHalf_joinHalves (l r : Half) : leftHalf (joinHalves l r) = l := BitVec.extractLsb'_append_eq_left

@[simp] theorem rightHalf_joinHalves (l r : Half) : rightHalf (joinHalves l r) = r := BitVec.extractLsb'_append_eq_right

@[simp] theorem joinHalves_halves (b : Data) : joinHalves (leftHalf b) (rightHalf b) = b :=
  (BitVec.extractLsb'_append_extractLsb'_eq_extractLsb' rfl).trans BitVec.extractLsb'_eq_self

section

variable {T : Tables} (hT : InverseTables T.ip T.fp) (p : Ipfp)

include hT

/-- The entry stage undoes the exit stage (R141, R144). -/
theorem entryStage_exitStage (h : Halves) : entryStage T p (exitStage T p h) = h := by
  cases p with
  | absent => simp [entryStage, exitStage]
  | present => simp [entryStage, exitStage, hT.symm.perm_perm]

/-- The exit stage undoes the entry stage (R141, R144). -/
theorem exitStage_entryStage (b : Data) : exitStage T p (entryStage T p b) = b := by
  cases p with
  | absent => simp [entryStage, exitStage]
  | present => simp [entryStage, exitStage, hT.perm_perm]

/-- The transform under the reversed schedule undoes the transform (R148). -/
theorem transform_reverse {S : List Subkey} (hS : S ≠ []) (b : Data) :
    transform T p S.reverse (transform T p S b) = b := by
  simp only [transform, entryStage_exitStage hT, feistelRounds_reverse T hS, exitStage_entryStage hT]

end

/-- Settles O53: the stages between the two round loops cancel, the loops undo each other round by round, and the outer
stages cancel. -/
theorem reversedScheduleInverts : Obligations.ReversedScheduleInverts := by
  intro T p S b hT _ _ ⟨hlen, _⟩
  exact transform_reverse hT p (List.ne_nil_of_length_pos hlen) b

/-- With `IPFP = present` the transform is the one without, between the two permutations (R141, R144). -/
theorem transform_present (T : Tables) (S : List Subkey) (b : Data) :
    transform T .present S b = perm T.fp (transform T .absent S (perm T.ip b)) := rfl

/-- The inverse permutations on both sides take the wrapper away again (R150). -/
theorem transform_absent {T : Tables} (hT : InverseTables T.ip T.fp) (S : List Subkey) (b : Data) :
    transform T .absent S b = perm T.ip (transform T .present S (perm T.fp b)) := by
  rw [transform_present, hT.symm.perm_perm, hT.symm.perm_perm]

/-- Settles O55: the standard tables are mutually inverse. -/
theorem wrapperRelatesSettings : Obligations.WrapperRelatesSettings :=
  transform_absent tableShapes_standardTables.inverse

/-! ### CRYPT -/

/-- Settles O23: the two failures of CRYPT, field by field. -/
theorem cryptRejectsRoundCount : Obligations.CryptRejectsRoundCount :=
  fun s _ => ⟨fun hn => execCrypt_of_illegal hn s, fun ⟨h1, h16⟩ hlen => execCrypt_of_mismatch h1 h16 hlen⟩

/-- The recurrence of R142 is a chain of inner rounds under the first subkeys. -/
theorem halvesAfter_eq_innerRounds (T : Tables) (ks : List Subkey) (h : Halves) {r : Nat} (hr : r ≤ ks.length) :
    halvesAfter T ks h r = innerRounds T (ks.take r) h := by
  induction r with
  | zero => rfl
  | succ r ih =>
    have subkey : ks.getD r 0#48 = ks[r] := by simp [Nat.lt_of_succ_le hr]
    rw [halvesAfter, ih (Nat.le_of_succ_le hr), subkey, ← innerRounds_concat, List.take_append_getElem]

/-- The round loop is the recurrence up to the last subkey, then the final round with it (R145). -/
theorem feistelRounds_eq_finalRound_halvesAfter (T : Tables) {ks : List Subkey} {r : Nat} (hr : ks.length = r + 1)
    (h : Halves) : feistelRounds T ks h = finalRound T (ks[r]'(by omega)) (halvesAfter T ks h r) := by
  have whole : ks.take r ++ [ks[r]'(by omega)] = ks := by
    rw [List.take_append_getElem, ← hr, List.take_length]
  calc feistelRounds T ks h
      = feistelRounds T (ks.take r ++ [ks[r]'(by omega)]) h := by rw [whole]
    _ = finalRound T (ks[r]'(by omega)) (innerRounds T (ks.take r) h) := feistelRounds_append T _ _ h
    _ = finalRound T (ks[r]'(by omega)) (halvesAfter T ks h r) := by
        rw [halvesAfter_eq_innerRounds T ks h (by omega)]

theorem entryStage_eq (T : Tables) (p : Ipfp) (b : Data) :
    entryStage T p b =
      ⟨leftHalf (if p = .present then perm T.ip b else b), rightHalf (if p = .present then perm T.ip b else b)⟩ := by
  cases p <;> rfl

theorem exitStage_eq (T : Tables) (p : Ipfp) (h : Halves) :
    exitStage T p h = if p = .present then perm T.fp (joinHalves h.l h.r) else joinHalves h.l h.r := by
  cases p <;> rfl

/-- Settles O29: the slots hold a list of `n` subkeys, and the round loop over it is the recurrence and the final round,
between the entry and the exit stage. -/
theorem cryptTransformsBlock : Obligations.CryptTransformsBlock := by
  intro s n ⟨h1, h16⟩ hslen held
  obtain ⟨ks, hks⟩ := exists_readSchedule held
  obtain ⟨hlen, hslots⟩ := readSchedule_eq_some h16 hks
  obtain ⟨r, rfl⟩ : ∃ r, n = r + 1 := ⟨n - 1, by omega⟩
  refine ⟨ks, _, _, _, ks[r], hlen, fun j hj => hslots j j.isLt hj, rfl, rfl, List.getElem?_eq_getElem _, rfl, ?_⟩
  have result := execCrypt_of_held h1 h16 hslen.symm hks
  rw [transform, exitStage_eq, feistelRounds_eq_finalRound_halvesAfter standardTables hlen, entryStage_eq] at result
  exact result

/-! ### KSGEN and CRYPT as steps of a run -/

/-- The schedule of the other direction is the schedule reversed (R103). -/
theorem schedule_of_ne {dir dir' : Direction} (h : dir ≠ dir') (T : Tables) (n : Nat) (key : Data) :
    schedule T dir' n key = (schedule T dir n key).reverse := by
  match dir, dir' with
  | .encrypt, .decrypt => rfl
  | .decrypt, .encrypt => exact (List.reverse_reverse _).symm
  | .encrypt, .encrypt => exact absurd rfl h
  | .decrypt, .decrypt => exact absurd rfl h

/-- A step that answers is the first of a run. -/
theorem run_succ {M : Host.Core} {k : Nat} {s t : M.State} (h : M.step s = .next t) :
    M.run (k + 1) s = M.run k t := by
  rw [Host.Core.run, h]

section

variable {s : State} {rest : List HostEvent} {n : Nat}

/-- A step at the word of a well-formed command that succeeds. -/
theorem step_of_exec {i : Instr} {d : Data} {u : State} (hp : s.pending = .command (encode i) d :: rest)
    (hi : i.wellFormed = true) (hu : exec i (sampleInputs (encode i) d (takeEvent rest s)) = .next u) :
    step s = .next (collectOutputs u) := by
  rw [step_of_command hp, runWord_of_ok (decodeOfEncode i hi), hu, finishCommand_next]

/-- A KSGEN step leaves the generated schedule in the store, with its length. -/
theorem step_ksgen {key : Data} {dir : Direction} (hp : s.pending = .command (encode (.ksgen dir n)) key :: rest)
    (h1 : 1 ≤ n) (h16 : n ≤ 16) :
    ∃ t, step s = .next t ∧ t.pending = rest ∧ t.ipfp = s.ipfp ∧ t.slen = BitVec.ofNat 5 n ∧
      t.sk = slotsOf (schedule standardTables dir n key) := by
  have fits : fitsCountField n = true := decide_eq_true (by omega)
  exact ⟨_, step_of_exec hp fits (execKsgen_of_legal h1 h16 dir _), by simp, by simp, by simp, by simp [rawKey]⟩

/-- A CRYPT step with a schedule of its length in the store returns the transformed block. -/
theorem step_crypt {b : Data} {ks : List Subkey} (hp : s.pending = .command (encode (.crypt n)) b :: rest)
    (h1 : 1 ≤ n) (h16 : n ≤ 16) (hslen : s.slen = BitVec.ofNat 5 n) (hsk : s.sk = slotsOf ks) (hks : ks.length = n) :
    ∃ t, step s = .next t ∧ t.ipfp = s.ipfp ∧ t.status = 0#4 ∧ t.rdata = transform standardTables s.ipfp ks b := by
  have fits : fitsCountField n = true := decide_eq_true (by omega)
  have count : n = s.slen.toNat := by rw [hslen, toNat_ofNat_of_fits fits]
  have keys : readSchedule (sampleInputs (encode (.crypt n)) b (takeEvent rest s)) n = some ks :=
    hks ▸ readSchedule_slotsOf hsk (hks.trans_le h16)
  have success := execCrypt_of_held (s := sampleInputs _ b (takeEvent rest s)) h1 h16 count keys
  exact ⟨_, step_of_exec hp fits success, rfl, rfl, rfl⟩

/-- KSGEN and then CRYPT with the same round count: the block through the schedule of the key (R140). -/
theorem run_ksgen_crypt {key b : Data} {dir : Direction}
    (hp : s.pending = [.command (encode (.ksgen dir n)) key, .command (encode (.crypt n)) b])
    (h1 : 1 ≤ n) (h16 : n ≤ 16) :
    ∃ t, core.run 2 s = .next t ∧ t.ipfp = s.ipfp ∧ t.status = 0#4 ∧
      t.rdata = transform standardTables s.ipfp (schedule standardTables dir n key) b := by
  obtain ⟨u, hu, upending, uipfp, uslen, usk⟩ := step_ksgen hp h1 h16
  obtain ⟨t, ht, tipfp, tstatus, trdata⟩ :=
    step_crypt upending h1 h16 uslen usk (length_schedule standardTables dir key h16)
  have run : core.run 2 s = .next t := calc
    core.run 2 s = core.run 1 u := run_succ hu
    _ = core.run 0 t := run_succ ht
    _ = .next t := rfl
  exact ⟨t, run, tipfp.trans uipfp, tstatus, uipfp ▸ trdata⟩

end

/-- Settles O54: the second run transforms under the reversed schedule, and `IPFP` is the same in both.
The list of events is the model's choice (log 3). -/
theorem runRoundTripReturnsBlock : Obligations.RunRoundTripReturnsBlock := by
  intro s key b n dir dir' ⟨h1, h16⟩ hdir
  obtain ⟨t, ht, tipfp, tstatus, trdata⟩ := run_ksgen_crypt (s := { s with pending := _ }) rfl h1 h16
  obtain ⟨u, hu, -, ustatus, urdata⟩ := run_ksgen_crypt (s := { t with pending := _ }) rfl h1 h16
  refine ⟨t, u, ht, tstatus, hu, ustatus, ?_⟩
  have nonempty : schedule standardTables dir n key ≠ [] :=
    List.ne_nil_of_length_pos (by rw [length_schedule standardTables dir key h16]; exact h1)
  rw [urdata, tipfp, schedule_of_ne hdir, trdata]
  exact transform_reverse tableShapes_standardTables.inverse s.ipfp nonempty b

end Sys2Proof.Machine

/-! ## Proofs: state access and control -/

namespace Sys2Proof.Machine

open Sys2Proof

/-! ### The parameter of the instance -/

theorem runWord_surroundings {w : CmdWord} {s t : State} (h : runWord w s = .next t) :
    t.surroundings = s.surroundings := by
  rcases runWord_eq_next h with ⟨i, -, hi⟩ | ⟨e, -, rfl⟩
  · exact exec_surroundings hi
  · exact driveOutputs_surroundings s _ _

/-- Settles O16: an idle step and a reset do not touch the parameter, and a command leaves all its surroundings. -/
theorem stepKeepsParameter : Obligations.StepKeepsParameter := by
  intro s t h
  rcases step_eq_next h with ⟨-, rfl⟩ | ⟨rest, -, rfl⟩ | ⟨w, d, rest, u, -, hu, rfl⟩
  · rfl
  · rfl
  · exact congrArg Surroundings.ipfp (runWord_surroundings hu)

/-! ### NOP and CLR -/

/-- The word of NOP (R53). -/
theorem encode_nop : encode .nop = 0x0000#16 := by decide

/-- Settles O25: NOP drives its outputs and no more, and the words that decode to it are its one encoding. -/
theorem nopDoesNothing : Obligations.NopDoesNothing := by
  refine ⟨fun _ => rfl, fun w => ?_⟩
  rw [decode_eq_ok_iff, encode_nop, eq_comm (a := w)]
  exact and_iff_right rfl

/-- Settles O33: what CLR leaves is by definition what reset leaves. -/
theorem clrReturnsToReset : Obligations.ClrReturnsToReset := fun _ => rfl

/-! ### RDSK -/

/-- A zero-extended subkey is 16 zero bits before it (R33). -/
theorem zext64_subkey (k : Subkey) : zext64 k = 0#16 ++ k := BitVec.setWidth_eq_append (by decide)

/-- Settles O30: below `SLEN` the slot is read, from `SLEN` on the index is refused. -/
theorem rdskReadsSlot : Obligations.RdskReadsSlot := by
  refine fun s i => ⟨fun hi k hlt hk => ?_, execRdsk_of_slen_le⟩
  rw [← zext64_subkey]
  exact execRdsk_of_held hlt ((readSlot_of_lt hi).trans hk)

/-! ### The status word -/

/-- The low 16 bits of the status word, by the fields of a command word: `SLEN` stands where `n` does, `SDIR` where
`dir` does, and `IPFP` in the lowest bit of `op` (R51, R162). -/
def statusFields (s : State) : Fields :=
  { op := 0#3 ++ ipfpBit s.ipfp, z1 := 0#3, dir := s.sdir.bit, z2 := 0#3, n := s.slen }

theorem statusWord_eq_append (s : State) : statusWord s = 0#48 ++ joinFields (statusFields s) := by
  ext i hi
  simp [statusWord, statusFields, joinFields]
  grind

/-- A bit range of the status word within its low 16 bits is that of the word of `statusFields`. -/
theorem extractLsb'_statusWord (s : State) {start len : Nat} (h : start + len ≤ 16) :
    (statusWord s).extractLsb' start len = (joinFields (statusFields s)).extractLsb' start len := by
  rw [statusWord_eq_append, BitVec.extractLsb'_append_eq_of_add_le h]

/-- The status word above `IPFP` is 0 (R162). -/
theorem extractLsb'_high_statusWord (s : State) : (statusWord s).extractLsb' 13 51 = 0#51 := by
  ext i hi
  simp [statusWord]
  grind

theorem getLsbD_statusWord_ipfp (s : State) : (statusWord s).getLsbD 12 = true ↔ s.ipfp = .present := by
  have bit : (statusWord s).getLsbD 12 = (ipfpBit s.ipfp).getLsbD 0 := by
    simp [statusWord]
    grind
  rw [bit]
  cases s.ipfp <;> decide

/-- Settles O31: RDST drives the status word, whose fields stand where those of a command word do. -/
theorem rdstReturnsStatusWord : Obligations.RdstReturnsStatusWord := by
  intro s
  have fields := splitWord_joinFields (statusFields s)
  refine ⟨driveOutputs (statusWord s) .ok s, rfl, rfl, ?slen, ?sdir, getLsbD_statusWord_ipfp s, ?z2, ?z1,
    extractLsb'_high_statusWord s⟩
  case slen => exact (extractLsb'_statusWord s (by decide)).trans (congrArg Fields.n fields)
  case sdir => exact (extractLsb'_statusWord s (by decide)).trans (congrArg Fields.dir fields)
  case z2 => exact (extractLsb'_statusWord s (by decide)).trans (congrArg Fields.z2 fields)
  case z1 => exact (extractLsb'_statusWord s (by decide)).trans (congrArg Fields.z1 fields)

/-! ### The status word after KSGEN -/

/-- The low 9 bits of a word are its fields `dir`, `z2` and `n` (R51). -/
theorem extractLsb'_low_joinFields (f : Fields) : (joinFields f).extractLsb' 0 9 = f.dir ++ f.z2 ++ f.n := by
  ext i hi
  simp [joinFields]
  grind

theorem extractLsb'_low_statusWord (s : State) : (statusWord s).extractLsb' 0 9 = s.sdir.bit ++ 0#3 ++ s.slen :=
  (extractLsb'_statusWord s (by decide)).trans (extractLsb'_low_joinFields _)

/-- The mask `0x011F` keeps `dir` and `n` of a word and clears its other fields (R51, R162). -/
theorem splitWord_and_dirCountMask (w : CmdWord) :
    splitWord (w &&& 0x011F#16) = ⟨0#4, 0#3, (splitWord w).dir, 0#3, (splitWord w).n⟩ := by
  have mask : splitWord 0x011F#16 = ⟨0#4, 0#3, BitVec.allOnes 1, 0#3, BitVec.allOnes 5⟩ := by decide
  simp only [splitWord_and, mask, BitVec.and_zero, BitVec.and_allOnes]

theorem extractLsb'_low_encode_ksgen_and_mask (dir : Direction) (n : Nat) :
    (encode (.ksgen dir n) &&& 0x011F#16).extractLsb' 0 9 = dir.bit ++ 0#3 ++ BitVec.ofNat 5 n := by
  rw [← joinFields_splitWord (_ &&& _), splitWord_and_dirCountMask, extractLsb'_low_joinFields, encode,
    splitWord_joinFields, fieldsOf]

/-- Settles O32: KSGEN writes `SDIR` and `SLEN` from the operands that stand at the same bits of its word. -/
theorem statusWordMirrorsKsgen : Obligations.StatusWordMirrorsKsgen := by
  intro s t u dir n ⟨h1, h16⟩ ht hu
  cases (execKsgen_of_legal h1 h16 dir s).symm.trans ht
  obtain rfl := complete_eq_next hu
  rw [driveOutputs_rdata, extractLsb'_low_statusWord, extractLsb'_low_encode_ksgen_and_mask]
  simp only [driveOutputs_sdir, driveOutputs_slen, storeSchedule_sdir, storeSchedule_slen]

end Sys2Proof.Machine

/-! ## Proofs: statuses -/

namespace Sys2Proof.Machine

open Sys2Proof

/-! ### With nothing pending -/

/-- Settles O9: the equation of a step with no event. That the ports keep their values (log 9) and the list of events
(log 3) are the model's choices. -/
theorem idleStepHoldsState : Obligations.IdleStepHoldsState := fun _ => step_of_nil

/-! ### The status of a command -/

theorem code_inj {c c' : Status} : c.code = c'.code ↔ c = c' := by cases c <;> cases c' <;> decide

/-- The status a command ends with when the length of the schedule is `slen`: the checks of KSGEN, CRYPT and RDSK, the
only ones there are (R183 to R185). -/
def statusOf (slen : BitVec 5) : Instr → Status
  | .ksgen _ n => if ¬ (1 ≤ n ∧ n ≤ 16) then .eRounds else .ok
  | .crypt n => if ¬ (1 ≤ n ∧ n ≤ 16) then .eRounds else if n ≠ slen.toNat then .eMismatch else .ok
  | .rdsk n => if slen.toNat ≤ n then .eIndex else .ok
  | .nop => .ok
  | .ldfk => .ok
  | .feval => .ok
  | .rdst => .ok
  | .clr => .ok

theorem exec_status {i : Instr} {s t : State} (h : exec i s = .next t) : t.status = (statusOf s.slen i).code := by
  cases i with
  | nop => exact congrArg State.status (complete_eq_next h)
  | ksgen dir n =>
    rcases execKsgen_eq_next h with ⟨h1, h16, rfl⟩ | ⟨hn, rfl⟩
    · simp [statusOf, h1, h16]
    · simp [statusOf, hn]
  | crypt n =>
    rcases execCrypt_eq_next h with ⟨h1, h16, hlen, ks, -, rfl⟩ | ⟨h1, h16, hlen, rfl⟩ | ⟨hn, rfl⟩
    · simp [statusOf, h1, h16, ← hlen]
    · simp [statusOf, h1, h16, hlen]
    · simp [statusOf, hn]
  | ldfk => exact congrArg State.status (complete_eq_next h)
  | feval => exact congrArg State.status (complete_eq_next h)
  | rdsk n =>
    rcases execRdsk_eq_next h with ⟨hn, k, -, rfl⟩ | ⟨hn, rfl⟩
    · simp [statusOf, Nat.not_le.mpr hn]
    · simp [statusOf, hn]
  | rdst => exact congrArg State.status (complete_eq_next h)
  | clr => exact congrArg State.status (complete_eq_next h)

theorem exec_status_eq_code_iff {i : Instr} {s t : State} (h : exec i s = .next t) (c : Status) :
    t.status = c.code ↔ statusOf s.slen i = c := by
  rw [exec_status h, code_inj]

/-- Settles O19: the first check of KSGEN and of CRYPT is the only one that answers `E_ROUNDS`. -/
theorem roundsErrorExactly : Obligations.RoundsErrorExactly := by
  intro i s t h
  refine (exec_status_eq_code_iff h .eRounds).trans ?_
  cases i with
  | ksgen dir n => simp [statusOf]
  | crypt n => simp [statusOf, ite_eq_iff]
  | rdsk n => simp [statusOf, ite_eq_iff]
  | _ => simp [statusOf]

/-- Settles O20: the second check of CRYPT is the only one that answers `E_MISMATCH`. -/
theorem mismatchErrorExactly : Obligations.MismatchErrorExactly := by
  intro i s t h
  refine (exec_status_eq_code_iff h .eMismatch).trans ?_
  cases i with
  | ksgen dir n => simp [statusOf, ite_eq_iff]
  | crypt n => simp [statusOf, ite_eq_iff, and_assoc]
  | rdsk n => simp [statusOf, ite_eq_iff]
  | _ => simp [statusOf]

/-- Settles O21: the check of RDSK is the only one that answers `E_INDEX`. -/
theorem indexErrorExactly : Obligations.IndexErrorExactly := by
  intro i s t h
  refine (exec_status_eq_code_iff h .eIndex).trans ?_
  cases i with
  | ksgen dir n => simp [statusOf, ite_eq_iff]
  | crypt n => simp [statusOf, ite_eq_iff]
  | rdsk n => simp [statusOf]
  | _ => simp [statusOf]

/-! ### The status of a word -/

theorem not_illegalWord_of_decode {w : CmdWord} {i : Instr} (h : decode w = .ok i) : ¬ IllegalWord w := by
  rw [← decode_error_iff]
  rintro ⟨e, he⟩
  cases h.symm.trans he

/-- The check order on the fields `f` of a word that is not illegal (R186, without its first check). -/
def statusByFields (f : Fields) (slen : BitVec 5) : StatusCode :=
  if (f.op.toNat = 0x1 ∨ f.op.toNat = 0x2) ∧ ¬ (1 ≤ f.n.toNat ∧ f.n.toNat ≤ 16) then 2#4
  else if f.op.toNat = 0x2 ∧ f.n.toNat ≠ slen.toNat then 3#4
  else if f.op.toNat = 0x5 ∧ slen.toNat ≤ f.n.toNat then 4#4
  else 0#4

theorem lt_one_or_lt_iff (n : Nat) : n < 1 ∨ 16 < n ↔ ¬ (1 ≤ n ∧ n ≤ 16) := by omega

theorem statusByPriority_of_legal {w : CmdWord} (h : ¬ IllegalWord w) (slen : BitVec 5) :
    statusByPriority w slen = statusByFields (splitWord w) slen := by
  rw [statusByPriority, if_neg h]
  simp only [lt_one_or_lt_iff]
  rfl

/-- The check order on the fields of a well-formed command makes the checks of that command. -/
theorem statusByFields_fieldsOf {i : Instr} (hi : i.wellFormed = true) (slen : BitVec 5) :
    statusByFields (fieldsOf i) slen = (statusOf slen i).code := by
  cases i with
  | ksgen dir n => simp [statusByFields, fieldsOf, statusOf, toNat_ofNat_of_fits hi, apply_ite Status.code]
  | crypt n => simp [statusByFields, fieldsOf, statusOf, toNat_ofNat_of_fits hi, apply_ite Status.code]
  | rdsk n => simp [statusByFields, fieldsOf, statusOf, toNat_ofNat_of_fits hi, apply_ite Status.code]
  | _ => rfl

/-- Settles O17: an illegal word fails the first check, and every other word has the fields of its command. -/
theorem statusFollowsPriority : Obligations.StatusFollowsPriority := by
  intro s t w h
  rcases runWord_eq_next h with ⟨i, hi, ht⟩ | ⟨e, he, rfl⟩
  · rw [exec_status ht, statusByPriority_of_legal (not_illegalWord_of_decode hi), splitWord_of_decode hi,
      statusByFields_fieldsOf (decode_eq_ok_iff.mp hi).1]
  · exact (if_pos ((decode_error_iff w).mp ⟨e, he⟩)).symm

/-! ### A command that fails -/

/-- A word whose status is not `OK` has only driven the output ports, `rdata` with 0 (R180, R187). -/
theorem runWord_eq_next_of_status_ne_zero {w : CmdWord} {s t : State} (h : runWord w s = .next t)
    (ht : t.status ≠ 0#4) : ∃ c, t = driveOutputs 0#64 c s := by
  rcases runWord_eq_next h with ⟨i, -, hi⟩ | ⟨e, -, rfl⟩
  · rcases exec_eq_next hi with ⟨d, rfl, -⟩ | ⟨c, -, rfl⟩
    · exact absurd rfl ht
    · exact ⟨c, rfl⟩
  · exact ⟨_, rfl⟩

/-- Settles O18: a failure drives the output ports and nothing else. -/
theorem failedCommandChangesNothing : Obligations.FailedCommandChangesNothing := by
  intro s t w h ht
  obtain ⟨c, rfl⟩ := runWord_eq_next_of_status_ne_zero h ht
  exact ⟨rfl, rfl, rfl, rfl, rfl⟩

end Sys2Proof.Machine

/-! ## Proofs: reset and runs -/

namespace Sys2Proof.Machine

open Sys2Proof

/-! ### The reset event -/

/-- Settles O10: the equation of a step at a reset. That the ports keep their values (log 9) and the list of events
(log 3) are the model's choices. -/
theorem resetEventClearsState : Obligations.ResetEventClearsState := fun _ _ => step_of_reset

/-! ### With no schedule -/

/-- Settles O24: with `SLEN` 0 no legal round count is the length and no index is below it, and the other commands check
nothing. -/
theorem noScheduleFailsCryptAndRdsk : Obligations.NoScheduleFailsCryptAndRdsk := by
  intro s hs
  have length : s.slen.toNat = 0 := congrArg BitVec.toNat hs
  refine ⟨fun n => ?crypt, fun i => ?rdsk, fun i hi => ?others⟩
  case crypt =>
    by_cases hn : 1 ≤ n ∧ n ≤ 16
    · rw [if_pos hn]
      exact execCrypt_of_mismatch hn.1 hn.2 (by omega)
    · rw [if_neg hn]
      exact execCrypt_of_illegal hn s
  case rdsk => exact execRdsk_of_slen_le (by omega)
  case others =>
    simp only [List.mem_cons, List.not_mem_nil, or_false] at hi
    rcases hi with rfl | rfl | rfl | rfl | rfl <;> exact ⟨_, rfl, rfl⟩

/-! ### `FK` and the schedule -/

section

variable {s t : State}

/-- FEVAL reads and writes no field of the schedule. -/
theorem execFeval_with_schedule (h : execFeval s = .next t) (slots : Vector (Option Subkey) 16) (len : BitVec 5)
    (dir : Direction) :
    execFeval { s with sk := slots, slen := len, sdir := dir } =
      .next { t with sk := slots, slen := len, sdir := dir } := by
  obtain rfl := complete_eq_next h
  rfl

/-- CRYPT neither reads `FK` nor writes it, whether it succeeds or fails. -/
theorem execCrypt_with_fk {n : Nat} (h : execCrypt n s = .next t) (k : Subkey) :
    execCrypt n { s with fk := k } = .next { t with fk := k } := by
  rcases execCrypt_eq_next h with ⟨h1, h16, hlen, ks, hks, rfl⟩ | ⟨h1, h16, hlen, rfl⟩ | ⟨hn, rfl⟩
  · exact execCrypt_of_held (s := { s with fk := k }) h1 h16 hlen hks
  · exact execCrypt_of_mismatch (s := { s with fk := k }) h1 h16 hlen
  · exact execCrypt_of_illegal hn _

end

/-- Settles O39: FEVAL and CRYPT by what they read, KSGEN and LDFK by what they write. -/
theorem subkeyRegisterAndScheduleUnrelated : Obligations.SubkeyRegisterAndScheduleUnrelated :=
  ⟨fun _ _ slots len dir h => execFeval_with_schedule h slots len dir, fun _ _ _ k h => execCrypt_with_fk h k,
    fun _ _ _ _ => execKsgen_fk, fun _ _ => execLdfk_schedule⟩

/-! ### Runs -/

theorem commandsIn_cons (e : HostEvent) (rest : List HostEvent) :
    commandsIn (e :: rest) = commandsIn [e] ++ commandsIn rest := by
  cases e <;> rfl

/-- A word leaves what the host holds: the events still to come and the responses received. -/
theorem runWord_pending_received {w : CmdWord} {s t : State} (h : runWord w s = .next t) :
    t.pending = s.pending ∧ t.received = s.received :=
  have same := runWord_surroundings h
  ⟨congrArg Surroundings.pending same, congrArg Surroundings.received same⟩

/-- A step takes the oldest event and appends one response if it is a command, none if it is a reset (R200, R208). -/
theorem step_at_event {s t : State} {e : HostEvent} {rest : List HostEvent} (hp : s.pending = e :: rest)
    (h : step s = .next t) :
    t.pending = rest ∧ ∃ rs, t.received = s.received ++ rs ∧ rs.length = (commandsIn [e]).length := by
  cases e with
  | reset =>
    cases (step_of_reset hp).symm.trans h
    exact ⟨rfl, [], (List.append_nil _).symm, rfl⟩
  | command w d =>
    obtain ⟨u, hu, rfl⟩ := finishCommand_eq_next ((step_of_command hp).symm.trans h)
    obtain ⟨hpending, hreceived⟩ := runWord_pending_received hu
    exact ⟨hpending, [⟨u.rdata, u.status⟩], congrArg (· ++ _) hreceived, rfl⟩

/-- From a state that meets the invariant a run takes all the events, one step for each, by induction on them. -/
theorem run_events {es : List HostEvent} {s : State} (hs : s.Inv) (hp : s.pending = es) :
    ∃ t rs, core.run es.length s = .next t ∧ t.pending = [] ∧ t.received = s.received ++ rs ∧
      rs.length = (commandsIn es).length ∧ t.Inv := by
  induction es generalizing s with
  | nil => exact ⟨s, [], rfl, hp, (List.append_nil _).symm, rfl, hs⟩
  | cons e es ih =>
    obtain ⟨u, hu⟩ := step_completes hs
    obtain ⟨upending, new, ureceived, hnew⟩ := step_at_event hp hu
    obtain ⟨t, rs, ht, tpending, treceived, hrs, tinv⟩ := ih (step_keeps_inv hs hu) upending
    refine ⟨t, new ++ rs, (run_succ hu).trans ht, tpending, ?_, ?_, tinv⟩
    · rw [treceived, ureceived, List.append_assoc]
    · rw [commandsIn_cons, List.length_append, List.length_append, hnew, hrs]

/-- Settles O15: each event is one step, which completes under the invariant, keeps it, and delivers the response of a
command. The lists of events and responses are the model's choice (log 3). -/
theorem runDeliversOneResponsePerCommand : Obligations.RunDeliversOneResponsePerCommand := fun _ hs => run_events hs rfl

end Sys2Proof.Machine
